-- ==== Sys2Proof/Config.lean ====
section
/-! DEFINITION. What the part fixes: the principal quantities of 00_scope.md and the default configuration of R176.
The spec leaves no value open after a command, so this file declares no free value. -/

namespace Sys2Proof.Config

/-- Message descriptors of the store (R1). -/
def descriptors : Nat := 1024
/-- Body cells of the store (R1). -/
def cells : Nat := 4096
/-- Bytes of one body cell (R3). -/
def cellBytes : Nat := 32
/-- Longest message body (R3). -/
def bodyMax : Nat := 512
/-- Longest frame body (R160). -/
def frameBodyMax : Nat := 560
/-- Entries of a port's response queue (R168). -/
def responseQueue : Nat := 4
/-- Greatest pull credit of an inlet (R34). -/
def creditMax : Nat := 16
/-- Greatest depth limit of an inlet (R19). -/
def depthMax : Nat := 64
/-- The depth limit an OPEN_INLET of depth 0 asks for (R22). -/
def depthDefault : Nat := 8
/-- Inlet 0's depth limit at attach and at reset (R21, R37). -/
def depthNotice : Nat := 16
/-- Greatest quota of a route (R43). -/
def quotaMax : Nat := 32
/-- Where a 16-bit counter stops (00 "Counters"). -/
def stop16 : Nat := 65535
/-- Where an 8-bit counter stops (00 "Counters"). -/
def stop8 : Nat := 255
/-- Bytes of bulk memory (R126). -/
def bulkBytes : Nat := 262144
/-- Default acknowledgement timeout in ms (R176). -/
def timeoutDefault : Nat := 20
/-- Default retry limit (R176). -/
def retryDefault : Nat := 3
/-- Default reserve cells (R176). -/
def reserveCellsDefault : Nat := 128
/-- Default reserve descriptors (R176). -/
def reserveDescriptorsDefault : Nat := 32

end Sys2Proof.Config
end

