-- ==== Sys2Proof/Word.lean ====
section
/-! DEFINITION. The plainest data of the model: a byte, a table of a fixed number of records, and a bounded index. -/

namespace Sys2Proof

/-- One byte of a frame, of a message body or of bulk memory. -/
abbrev Byte := BitVec 8

/-- A table of `n` like records, numbered 0 to `n - 1`: plain data, so that two tables can be compared and written out. -/
structure Tab (n : Nat) (α : Type) where
  cells : List α
  len : cells.length = n
  deriving DecidableEq, Repr

/-- Record `i` of a table. -/
def Tab.get {n : Nat} {α : Type} (t : Tab n α) (i : Fin n) : α :=
  t.cells[i.val]'(by rw [t.len]; exact i.isLt)

/-- The table with record `i` replaced. -/
def Tab.put {n : Nat} {α : Type} (t : Tab n α) (i : Fin n) (x : α) : Tab n α :=
  ⟨t.cells.set i.val x, by rw [List.length_set, t.len]⟩

/-- Every record changed by one function. -/
def Tab.map {n : Nat} {α β : Type} (f : α → β) (t : Tab n α) : Tab n β :=
  ⟨t.cells.map f, by rw [List.length_map, t.len]⟩

/-- The table of `n` records all equal to `x`. -/
def Tab.all (n : Nat) {α : Type} (x : α) : Tab n α :=
  ⟨List.replicate n x, List.length_replicate⟩

/-- A number as an index below `n`, if it is one. -/
def fin? (n x : Nat) : Option (Fin n) :=
  if h : x < n then some ⟨x, h⟩ else none

/-- The first position, counted from `k`, whose entry satisfies `p`. -/
def firstFrom {α : Type} (p : α → Bool) : List α → Nat → Option Nat
  | [], _ => none
  | x :: xs, k => if p x then some k else firstFrom p xs (k + 1)

/-- Every position, counted from `k`, whose entry satisfies `p`, ascending. -/
def allFrom {α : Type} (p : α → Bool) : List α → Nat → List Nat
  | [], _ => []
  | x :: xs, k => if p x then k :: allFrom p xs (k + 1) else allFrom p xs (k + 1)

/-- The lowest-numbered record that satisfies `p`. -/
def Tab.first {n : Nat} {α : Type} (p : α → Bool) (t : Tab n α) : Option (Fin n) :=
  (firstFrom p t.cells 0).bind (fin? n)

/-- The numbers of all records that satisfy `p`, ascending. -/
def Tab.matching {n : Nat} {α : Type} (p : α → Bool) (t : Tab n α) : List (Fin n) :=
  (allFrom p t.cells 0).filterMap (fin? n)

/-- How many records satisfy `p`. -/
def Tab.count {n : Nat} {α : Type} (p : α → Bool) (t : Tab n α) : Nat :=
  t.cells.countP p

end Sys2Proof
end

