-- ==== Sys2Proof/Syntax.lean ====
section
/-! DEFINITION. The commands of the part: one constructor of `Instr` for each row of the opcode table, with its operands.
A request carries the fields of its REQUEST frame as the bytes give them; whether they are in range is judged by the
form gate (R150), not here. -/

namespace Sys2Proof

/-- An agent port, 0 to 7; the agent bears the same number. -/
abbrev Port := Fin 8

/-- The body of a request whose length is fixed: its fields, or, where the body's length is not the one the request's
fields require (R150), the bytes it came with. -/
inductive Body (α : Type) where
  | fields (f : α)
  | misshapen (bytes : List Byte)
  deriving DecidableEq, Repr

/-- HELLO (R109). -/
structure HelloFields where
  agentClass : Byte
  name : List Byte
  deriving DecidableEq, Repr

/-- CREATE_ROUTE (R49); `rights` and `notify` are the set bytes of R162. -/
structure CreateRouteFields where
  inlet : Nat
  label : Nat
  rights : Nat
  quota : Nat
  notify : Nat
  deriving DecidableEq, Repr

/-- OPEN_INLET (R22). -/
structure OpenInletFields where
  inlet : Nat
  lane : Nat
  depth : Nat
  wake : Nat
  deriving DecidableEq, Repr

/-- CLOSE_INLET (R25); `mode` is 0 DRAIN, 1 DISCARD. -/
structure CloseInletFields where
  inlet : Nat
  mode : Nat
  deriving DecidableEq, Repr

/-- SET_INLET (R23). -/
structure SetInletFields where
  inlet : Nat
  depth : Nat
  wake : Nat
  lane : Nat
  deriving DecidableEq, Repr

/-- SET_LANE (R33); `mode` is 0 PUSH, 1 PULL. -/
structure SetLaneFields where
  lane : Nat
  mode : Nat
  deriving DecidableEq, Repr

/-- RECEIVE (R35). -/
structure ReceiveFields where
  inlet : Nat
  count : Nat
  deriving DecidableEq, Repr

/-- One enclosure spec of a SEND (R62): `kind` 0 ROUTE, 1 GRANT; `mode` 0 COPY, 1 PASS; `rights` the set byte. -/
structure SpecFields where
  kind : Nat
  slot : Nat
  mode : Nat
  rights : Nat
  quota : Nat
  deriving DecidableEq, Repr

/-- SEND (R62). `bodyLength` is the length the request states, `body` the bytes that follow it. -/
structure SendFields where
  slot : Nat
  ret : Nat
  mint : Nat
  replyInlet : Option Nat
  specs : List SpecFields
  bodyLength : Nat
  body : List Byte
  deriving DecidableEq, Repr

/-- CREATE_WINDOW (R133). -/
structure CreateWindowFields where
  base : Nat
  limit : Nat
  share : Nat
  deriving DecidableEq, Repr

/-- STREAM_OPEN (R141): `direction` 0 WRITE, 1 READ; `order` 0 ASCENDING, 1 DESCENDING. -/
structure StreamOpenFields where
  slot : Nat
  direction : Nat
  order : Nat
  deriving DecidableEq, Repr

/-- SET_PORT (R179); `atnMode` is 0 LEVEL, 1 PULSE. -/
structure SetPortFields where
  port : Nat
  timeout : Nat
  retryLimit : Nat
  atnMode : Nat
  base : Nat
  length : Nat
  deriving DecidableEq, Repr

/-- SET_RESERVE (R180). -/
structure SetReserveFields where
  cells : Nat
  descriptors : Nat
  deriving DecidableEq, Repr

/-- The commands, one constructor for each row of spec/opcode_table.json. `p` is the port at which the frame, the edge
or the engine's event happens, `tag` the REQUEST frame's tag. A request without fields carries its body's bytes, which a
well-made one has none of. -/
inductive Instr where
  /-- HELLO request (R109, R110, R111). -/
  | hello (p : Port) (tag : Byte) (body : Body HelloFields)
  /-- BYE request (R112). -/
  | bye (p : Port) (tag : Byte) (body : List Byte)
  /-- DORMANT request (R113). -/
  | dormant (p : Port) (tag : Byte) (body : List Byte)
  /-- RESUME request (R114). -/
  | resume (p : Port) (tag : Byte) (body : List Byte)
  /-- STATUS request (R115). -/
  | status (p : Port) (tag : Byte) (body : List Byte)
  /-- CREATE_ROUTE request (R49). -/
  | createRoute (p : Port) (tag : Byte) (body : Body CreateRouteFields)
  /-- DROP_ROUTE request of a route slot (R50). -/
  | dropRoute (p : Port) (tag : Byte) (slot : Body Nat)
  /-- REVOKE_FAMILY request of a family (R53). -/
  | revokeFamily (p : Port) (tag : Byte) (family : Body Nat)
  /-- ROUTE_INFO request of a route slot (R51). -/
  | routeInfo (p : Port) (tag : Byte) (slot : Body Nat)
  /-- OPEN_INLET request (R22). -/
  | openInlet (p : Port) (tag : Byte) (body : Body OpenInletFields)
  /-- CLOSE_INLET request (R25). -/
  | closeInlet (p : Port) (tag : Byte) (body : Body CloseInletFields)
  /-- SET_INLET request (R23). -/
  | setInlet (p : Port) (tag : Byte) (body : Body SetInletFields)
  /-- SET_LANE request (R33). -/
  | setLane (p : Port) (tag : Byte) (body : Body SetLaneFields)
  /-- RECEIVE request (R35). -/
  | receive (p : Port) (tag : Byte) (body : Body ReceiveFields)
  /-- INLET_STATUS request of an inlet (R31). -/
  | inletStatus (p : Port) (tag : Byte) (inlet : Body Nat)
  /-- SEND request (R62, R64). -/
  | send (p : Port) (tag : Byte) (body : Body SendFields)
  /-- CREATE_WINDOW request (R133). -/
  | createWindow (p : Port) (tag : Byte) (body : Body CreateWindowFields)
  /-- CLOSE_WINDOW request of a grant slot (R134). -/
  | closeWindow (p : Port) (tag : Byte) (slot : Body Nat)
  /-- DROP_GRANT request of a grant slot (R136). -/
  | dropGrant (p : Port) (tag : Byte) (slot : Body Nat)
  /-- STREAM_OPEN request (R141). -/
  | streamOpen (p : Port) (tag : Byte) (body : Body StreamOpenFields)
  /-- STREAM_DATA request with its bytes (R142). -/
  | streamData (p : Port) (tag : Byte) (data : List Byte)
  /-- STREAM_READ request of a count (R143). -/
  | streamRead (p : Port) (tag : Byte) (count : Body Nat)
  /-- EVICT request naming a port (R181). -/
  | evict (p : Port) (tag : Byte) (port : Body Nat)
  /-- SET_PORT request (R179). -/
  | setPort (p : Port) (tag : Byte) (body : Body SetPortFields)
  /-- SET_RESERVE request (R180). -/
  | setReserve (p : Port) (tag : Byte) (body : Body SetReserveFields)
  /-- PORT_STATUS request naming a port (R182). -/
  | portStatus (p : Port) (tag : Byte) (port : Body Nat)
  /-- STORE_STATUS request (R183). -/
  | storeStatus (p : Port) (tag : Byte) (body : List Byte)
  /-- SYSTEM_RESET request (R184). -/
  | systemReset (p : Port) (tag : Byte) (body : List Byte)
  /-- A REQUEST frame whose request kind names no request (R150); an empty body has kind 0x00 (R162). -/
  | unknownRequestKind (p : Port) (tag : Byte) (kind : Byte) (body : List Byte)
  /-- ACK frame with its delivery number (R93, R95). -/
  | ack (p : Port) (number : Byte)
  /-- NAK frame with its delivery number (R93, R94). -/
  | nak (p : Port) (number : Byte)
  /-- An inbound frame that ends in error (R167); `tag` is present when all five header bytes were received. -/
  | inboundFrameError (p : Port) (tag : Option Byte)
  /-- SEL asserted (R156, R170). -/
  | transactionStart (p : Port)
  /-- SEL released (R156, R171). -/
  | transactionEnd (p : Port)
  /-- The outbound frame shifts out its last byte (R171). -/
  | frameShiftedOut (p : Port)
  /-- The acknowledgement timer expires (R92). -/
  | timerExpiry (p : Port)
  /-- An ATN pulse ends (R172). -/
  | atnPulseEnd (p : Port)
  /-- The delivery engine's choice (R85). -/
  | deliveryChoice (p : Port)
  /-- The route table's step of a sweep (R60). -/
  | routeTableSweep (p : Port)
  /-- The grant table's step of a sweep (R145). -/
  | grantTableSweep (p : Port)
  /-- The inlet table's step of a sweep (R36). -/
  | inletTableSweep (p : Port)
  /-- The completion of a sweep (R123). -/
  | sweepCompletion (p : Port)
  /-- Power-on (R177). -/
  | powerOn
  /-- RSTN asserted (R156). -/
  | resetPinAssert
  /-- RSTN released (R177). -/
  | resetPinRelease
  /-- Start-up completes, with the level of the supervisor strap (R177, R178). -/
  | startupCompletion (strap : Bool)
  /-- A byte is received within a transaction (R159). -/
  | byteReceived (p : Port) (byte : Byte)
  deriving DecidableEq, Repr

end Sys2Proof
end

