-- ==== Sys2Proof/Machine/State.lean ====
section
/-! DEFINITION. The state of the VH-820 as plain data, every record of the spec under its own name, the reasons a step can
stop, and the state after power-on. A record of a table that the spec calls FREE (a route slot, a grant slot, a family, a
window) or NONE (a stream) is `none`: in it the other fields carry no meaning and no rule reads them (R38, R43, R128, R131). -/

namespace Sys2Proof.Machine

/-- Reasons a step can fault. There is none: no rule of the spec stops the part (R155). -/
inductive Fault where
  deriving DecidableEq, Repr

/-- Reasons a step can be refused. -/
inductive Refusal where
  /-- Raised by `exec` alone, for a command that has no meaning yet; safe, since nothing can be proved of its effect. -/
  | notModelled (mnemonic : String)
  deriving DecidableEq, Repr

/-! ### Messages (01) -/

/-- Rights of a route copy: a subset of COPY and PASS (R38). -/
structure RouteRights where
  copy : Bool
  pass : Bool
  deriving DecidableEq, Repr

/-- Rights of a grant: a subset of READ and WRITE (R131). -/
structure GrantRights where
  read : Bool
  write : Bool
  deriving DecidableEq, Repr

/-- The notify set of a family: a subset of COPIED, PASSED and DROPPED (R43, R47). -/
structure NotifySet where
  copied : Bool
  passed : Bool
  dropped : Bool
  deriving DecidableEq, Repr

/-- How a copy entered its message (R5). -/
inductive EnclosureMode where
  | copy
  | pass
  | minted
  deriving DecidableEq, Repr

/-- Why an enclosed copy did not reach the receiver (R5). -/
inductive DropReason where
  | noSlot
  | revoked
  deriving DecidableEq, Repr

/-- The state of an enclosure (R5), with the receiver's slot of a RESERVED one and the reason of a DROPPED one. -/
inductive Settlement (Slot : Type) where
  | inTransit
  | reserved (slot : Slot)
  | dropped (reason : DropReason)
  deriving DecidableEq, Repr

/-- An enclosure record (R5): a route copy or a grant copy that travels with a message. A grant has no quota. -/
inductive Enclosure where
  | route (family : Fin 256) (mode : EnclosureMode) (rights : RouteRights) (quota : Nat) (state : Settlement (Fin 63))
  | grant (window : Fin 32) (mode : EnclosureMode) (rights : GrantRights) (state : Settlement (Fin 8))
  deriving DecidableEq, Repr

/-- Who sent a message (R4): an agent, by its port, its generation and the route slot and serial the SEND went through, or
the controller (sender port 8, generation 0, no slot, no serial). -/
inductive Sender where
  | agent (port : Port) (generation : Nat) (slot : Fin 63) (serial : Nat)
  | controller
  deriving DecidableEq, Repr

/-- The lifecycle of a message (R10). -/
inductive Lifecycle where
  | queued
  | inDelivery
  deriving DecidableEq, Repr

/-- A body cell held by a descriptor (R1, R3): its number, 0 to 4095, and the body bytes in it (fewer than 32 in the
last cell of a body, whose further bytes are not presented to anyone). -/
structure BodyCell where
  number : Nat
  bytes : List Byte
  deriving DecidableEq, Repr

/-- A descriptor in use (R4). It stands in exactly one inlet queue (R10), which holds it. -/
structure Descriptor where
  number : Nat
  messageNumber : Nat
  sender : Sender
  targetPort : Port
  targetInlet : Fin 16
  ret : Bool
  label : Nat
  lifecycle : Lifecycle
  enclosures : List Enclosure
  bodyLength : Nat
  cells : List BodyCell
  deriving DecidableEq, Repr

/-- The message store's counts and counters (R1, R6, R7, R9). -/
structure Store where
  freeCells : Nat
  freeDescriptors : Nat
  nextMessage : Nat
  nextSerial : Nat
  refused : Nat
  lost : Nat
  deriving DecidableEq, Repr

/-! ### Inlets and lanes (02) -/

/-- The state of an inlet (R19): CLOSED, OPEN, DRAINING. -/
inductive InletState where
  | closed
  | opened
  | draining
  deriving DecidableEq, Repr

/-- An inlet record (R19). -/
structure Inlet where
  state : InletState
  lane : Fin 4
  depth : Nat
  wake : Bool
  queue : List Descriptor
  credit : Nat
  refusedFull : Nat
  deriving DecidableEq, Repr

/-- The mode of a lane (R32). -/
inductive LaneMode where
  | push
  | pull
  deriving DecidableEq, Repr

/-- A lane record (R32). -/
structure Lane where
  mode : LaneMode
  lastServed : Fin 16
  deriving DecidableEq, Repr

/-! ### Routes, families, windows, grants, streams (03, 07) -/

/-- The state of a route slot or grant slot that is not FREE (R39, R131). -/
inductive CopyState where
  | live
  | stale
  | reserved
  deriving DecidableEq, Repr

/-- What a route slot that is not FREE holds (R38). -/
structure RouteCopy where
  state : CopyState
  family : Fin 256
  rights : RouteRights
  quota : Nat
  outstanding : Nat
  serial : Nat
  deriving DecidableEq, Repr

/-- The state of a family that is not FREE (R44). -/
inductive FamilyState where
  | active
  | revoked
  deriving DecidableEq, Repr

/-- The kind of a family (R43). -/
inductive FamilyKind where
  | ordinary
  | single
  deriving DecidableEq, Repr

/-- A family record that is not FREE (R43); its target port is its creator port. -/
structure Family where
  state : FamilyState
  kind : FamilyKind
  creator : Port
  generation : Nat
  targetInlet : Fin 16
  label : Nat
  rights : RouteRights
  quota : Nat
  notify : NotifySet
  copies : Nat
  deriving DecidableEq, Repr

/-- The state of a window that is not FREE (R128): OPEN, REVOKED. -/
inductive WindowState where
  | opened
  | revoked
  deriving DecidableEq, Repr

/-- A window record that is not FREE (R128). -/
structure Window where
  state : WindowState
  owner : Port
  generation : Nat
  base : Fin 262144
  limit : Fin 262144
  share : Bool
  grants : Nat
  deriving DecidableEq, Repr

/-- What a grant slot that is not FREE holds (R131). -/
structure Grant where
  state : CopyState
  window : Fin 32
  rights : GrantRights
  deriving DecidableEq, Repr

/-- The state of a stream that is not NONE (R139). -/
inductive StreamState where
  | write
  | read
  | broken
  deriving DecidableEq, Repr

/-- Direction of cursor movement (R139). -/
inductive StreamOrder where
  | ascending
  | descending
  deriving DecidableEq, Repr

/-- A stream record that is not NONE (R139); the cursor runs from -1 to 262144. -/
structure Stream where
  state : StreamState
  window : Fin 32
  base : Fin 262144
  limit : Fin 262144
  order : StreamOrder
  cursor : Int
  deriving DecidableEq, Repr

/-! ### The configuration record (10) -/

/-- How a port drives ATN (R172, R176). -/
inductive AtnMode where
  | level
  | pulse
  deriving DecidableEq, Repr

/-- The five settings of a port (R176). -/
structure PortSettings where
  timeout : Nat
  retryLimit : Nat
  atnMode : AtnMode
  partitionBase : Nat
  partitionLength : Nat
  deriving DecidableEq, Repr

/-- The configuration record (R176). -/
structure Configuration where
  ports : Tab 8 PortSettings
  reserveCells : Nat
  reserveDescriptors : Nat
  deriving DecidableEq, Repr

/-- The controller state (R175). -/
inductive ControllerState where
  | starting
  | running
  deriving DecidableEq, Repr

/-! ### Responses (08) -/

/-- The status codes (R155), in the order of its table. -/
inductive Status where
  | ok
  | already
  | queued
  | empty
  | notAttached
  | notPermitted
  | badRequest
  | badState
  | busy
  | fixed
  | noRoute
  | noGrant
  | revoked
  | quota
  | inletClosed
  | inletFull
  | noRight
  | badEnclosure
  | storeFull
  | noFamily
  | tableFull
  | noWindow
  | outOfPartition
  | windowRevoked
  | frameError
  deriving DecidableEq, Repr

/-- The state of a session (R106, R107). -/
inductive SessionState where
  | vacant
  | attached
  | dormant
  | withdrawing
  deriving DecidableEq, Repr

/-- The state of a delivery engine (R83). -/
inductive EngineState where
  | idle
  | presented
  | sent
  deriving DecidableEq, Repr

/-- The six port counters (R173). -/
structure Counters where
  framesIn : Nat
  frameErrors : Nat
  stray : Nat
  overruns : Nat
  completed : Nat
  abandoned : Nat
  deriving DecidableEq, Repr

/-- The fields of a STATUS answer (R115). -/
structure StatusReport where
  port : Port
  controller : ControllerState
  session : SessionState
  generation : Nat
  supervisor : Bool
  wakePending : Bool
  lost : Nat
  delivery : EngineState
  number : Nat
  deriving DecidableEq, Repr

/-- The fields of a ROUTE_INFO answer (R51). -/
structure RouteReport where
  slot : Fin 63
  state : CopyState
  family : Fin 256
  rights : RouteRights
  quota : Nat
  outstanding : Nat
  serial : Nat
  familyState : FamilyState
  kind : FamilyKind
  label : Nat
  targetPort : Port
  targetInlet : Fin 16
  deriving DecidableEq, Repr

/-- The fields of an INLET_STATUS answer (R31). -/
structure InletReport where
  inlet : Fin 16
  state : InletState
  lane : Fin 4
  mode : LaneMode
  depth : Nat
  wake : Bool
  length : Nat
  headInDelivery : Bool
  headNumber : Nat
  credit : Nat
  refusedFull : Nat
  deriving DecidableEq, Repr

/-- The fields of a PORT_STATUS answer (R182); `stream` absent is NONE. -/
structure PortReport where
  port : Port
  session : SessionState
  generation : Nat
  agentClass : Byte
  name : List Byte
  wakePending : Bool
  lost : Nat
  helloHeld : Bool
  byeHeld : Bool
  delivery : EngineState
  number : Nat
  stream : Option StreamState
  waiting : Nat
  overrun : Nat
  settings : PortSettings
  counters : Counters
  deriving DecidableEq, Repr

/-- The fields of a STORE_STATUS answer (R183). -/
structure StoreReport where
  freeCells : Nat
  freeDescriptors : Nat
  inUse : Nat
  reserveCells : Nat
  reserveDescriptors : Nat
  nextMessage : Nat
  nextSerial : Nat
  refused : Nat
  lost : Nat
  freeFamilies : Nat
  freeWindows : Nat
  deriving DecidableEq, Repr

/-- The result fields of a response (R153); a response with a status other than OK, QUEUED or EMPTY carries none. -/
inductive Result where
  | none
  | hello (port : Port) (generation : Nat) (supervisor : Bool)
  | status (r : StatusReport)
  | createRoute (slot : Fin 63) (family : Fin 256) (serial : Nat)
  | dropRoute (family : Fin 256) (copies : Nat)
  | revokeFamily (stale : Nat) (copies : Nat)
  | routeInfo (r : RouteReport)
  | closeInlet (state : InletState) (destroyed : Nat) (revoked : Nat)
  | receive (credit : Nat)
  | inletStatus (r : InletReport)
  | send (number : Nat) (minted : Option (Fin 256))
  | createWindow (window : Fin 32) (slot : Fin 8)
  | closeWindow (window : Fin 32) (stale : Nat) (broken : Nat) (grants : Nat)
  | dropGrant (window : Fin 32) (grants : Nat)
  | streamOpen (window : Fin 32) (base limit : Fin 262144) (rights : GrantRights) (cursor : Int)
  | streamData (written : Nat) (discarded : Nat) (cursor : Int)
  | streamRead (bytes : List Byte) (cursor : Int)
  | setPort (settings : PortSettings)
  | setReserve (reserveCells reserveDescriptors freeCells freeDescriptors : Nat)
  | portStatus (r : PortReport)
  | storeStatus (r : StoreReport)
  | systemReset (supervisor : Bool)
  deriving DecidableEq, Repr

/-- A response (R168): its tag, its request kind as received, its status and its result fields. -/
structure Response where
  tag : Byte
  kind : Byte
  status : Status
  result : Result
  deriving DecidableEq, Repr

/-! ### The columns: one agent's port and tables -/

/-- A HELLO held across a sweep (R110, R111). -/
structure HeldHello where
  tag : Byte
  agentClass : Byte
  name : List Byte
  deriving DecidableEq, Repr

/-- The owners of a sweep that have yet to report (R106, R120): true for yet to report. -/
structure Sweep where
  routeTable : Bool
  grantTable : Bool
  inletTable : Bool
  deriving DecidableEq, Repr

/-- The session record (R106). -/
structure Session where
  state : SessionState
  generation : Nat
  agentClass : Byte
  name : List Byte
  heldBye : Option Byte
  heldHello : Option HeldHello
  heldAnswers : List Response
  wakePending : Bool
  lost : Nat
  sweep : Option Sweep
  deriving DecidableEq, Repr

/-- The DELIVER frame as built at first offer (R90): the settled enclosures are its entries. -/
structure DeliverFrame where
  number : Nat
  inlet : Fin 16
  sender : Sender
  label : Nat
  messageNumber : Nat
  ret : Bool
  entries : List Enclosure
  body : List Byte
  deriving DecidableEq, Repr

/-- The delivery engine record (R82). The current message is the head of the inlet `current` (R83). `timer` holds the
time in ms a running timer was set to. -/
structure Engine where
  state : EngineState
  current : Option (Fin 16)
  number : Nat
  retries : Nat
  timeout : Nat
  retryLimit : Nat
  frame : Option DeliverFrame
  timer : Option Nat
  deriving DecidableEq, Repr

/-- Progress of the inbound frame of a transaction (R157, R159), with the bytes kept from the sync byte on. -/
inductive Assembly where
  | searching
  | inFrame (bytes : List Byte)
  | spent
  deriving DecidableEq, Repr

/-- What an outbound frame carries (R171): nothing that has an outcome, a response of the queue with the overrun count
its frame reports (R169), a delivery with its number, or an entry or delivery discarded while its frame was under way. -/
inductive Carried where
  | idle
  | response (overrun : Nat)
  | deliver (number : Nat)
  | discarded
  deriving DecidableEq, Repr

/-- The outbound frame of the present transaction and its progress in bytes (R157). -/
structure Outbound where
  carried : Carried
  bytes : List Byte
  progress : Nat
  deriving DecidableEq, Repr

/-- The kind that wins when a response and a delivery both wait (R157, R170). -/
inductive Turn where
  | response
  | deliver
  deriving DecidableEq, Repr

/-- The drive of the attention line (R157, R172). -/
inductive Atn where
  | released
  | asserted
  | pulsing
  deriving DecidableEq, Repr

/-- The port controller record (R157), with the level of its SEL line (true: asserted). A transaction is under way
exactly while an outbound frame is fixed (R158). -/
structure PortController where
  sel : Bool
  assembly : Assembly
  responses : List Response
  outbound : Option Outbound
  turn : Turn
  overrun : Nat
  counters : Counters
  atn : Atn
  deriving DecidableEq, Repr

/-- Everything the part holds for one port and its agent (00 "Block overview"). -/
structure Column where
  session : Session
  engine : Engine
  stream : Option Stream
  port : PortController
  inlets : Tab 16 Inlet
  lanes : Tab 4 Lane
  routes : Tab 63 (Option RouteCopy)
  grants : Tab 8 (Option Grant)
  deriving DecidableEq, Repr

/-- The state of the part. `bulk` is bulk memory as a canonical list of (offset, byte) pairs, an unlisted offset reading
0 (R126). `pending` is the queue of commands that wait, first in, first out. -/
structure State where
  rstnLow : Bool
  controller : ControllerState
  supervisor : Bool
  pendingReset : Option Byte
  config : Configuration
  store : Store
  families : Tab 256 (Option Family)
  windows : Tab 32 (Option Window)
  bulk : List Host.Cell
  columns : Tab 8 Column
  pending : List Instr
  deriving DecidableEq, Repr

/-! ### After reset -/

/-- R18. -/
def Store.fresh : Store :=
  { freeCells := Config.cells, freeDescriptors := Config.descriptors, nextMessage := 1, nextSerial := 1,
    refused := 0, lost := 0 }

/-- R37, inlet 0. -/
def Inlet.freshNotice : Inlet :=
  { state := .closed, lane := 0, depth := Config.depthNotice, wake := true, queue := [], credit := 0, refusedFull := 0 }

/-- R37, inlets 1 to 15. -/
def Inlet.fresh : Inlet :=
  { state := .closed, lane := 0, depth := Config.depthDefault, wake := false, queue := [], credit := 0, refusedFull := 0 }

/-- R37. -/
def freshInlets : Tab 16 Inlet :=
  (Tab.all 16 Inlet.fresh).put 0 Inlet.freshNotice

/-- R37. -/
def freshLanes : Tab 4 Lane :=
  Tab.all 4 { mode := .push, lastServed := 15 }

/-- R125, with the generation given. -/
def Session.fresh (generation : Nat) : Session :=
  { state := .vacant, generation := generation, agentClass := 0, name := List.replicate 16 0, heldBye := none,
    heldHello := none, heldAnswers := [], wakePending := false, lost := 0, sweep := none }

/-- R105, with the record copies of the timeout and the retry limit given. -/
def Engine.fresh (timeout retryLimit : Nat) : Engine :=
  { state := .idle, current := none, number := 0, retries := 0, timeout := timeout, retryLimit := retryLimit,
    frame := none, timer := none }

/-- R173, R174. -/
def Counters.zero : Counters :=
  { framesIn := 0, frameErrors := 0, stray := 0, overruns := 0, completed := 0, abandoned := 0 }

/-- R174, with the level of SEL given. -/
def PortController.fresh (sel : Bool) : PortController :=
  { sel := sel, assembly := .searching, responses := [], outbound := none, turn := .response, overrun := 0,
    counters := Counters.zero, atn := .released }

/-- One port and its agent after power-on or the reset pin, with the level of SEL given. -/
def Column.fresh (sel : Bool) : Column :=
  { session := Session.fresh 0, engine := Engine.fresh Config.timeoutDefault Config.retryDefault, stream := none,
    port := PortController.fresh sel, inlets := freshInlets, lanes := freshLanes, routes := Tab.all 63 none,
    grants := Tab.all 8 none }

/-- The defaults of a port's settings (R127, R176), with the partition length given. -/
def PortSettings.fresh (partitionLength : Nat) : PortSettings :=
  { timeout := Config.timeoutDefault, retryLimit := Config.retryDefault, atnMode := .level, partitionBase := 0,
    partitionLength := partitionLength }

/-- The default configuration (R127, R176): port 0's partition is the whole of bulk memory. -/
def Configuration.fresh : Configuration :=
  { ports := (Tab.all 8 (PortSettings.fresh 0)).put 0 (PortSettings.fresh Config.bulkBytes),
    reserveCells := Config.reserveCellsDefault, reserveDescriptors := Config.reserveDescriptorsDefault }

/-- The machine right after power-on (R177): STARTING, every block in its after-reset state, bulk memory all 0, SEL
released at every port, no command waiting. -/
def State.reset : State :=
  { rstnLow := false, controller := .starting, supervisor := false, pendingReset := none,
    config := Configuration.fresh, store := Store.fresh, families := Tab.all 256 none, windows := Tab.all 32 none,
    bulk := [], columns := Tab.all 8 (Column.fresh false), pending := [] }

end Sys2Proof.Machine
end

