-- ==== Sys2Proof/Machine/Operands.lean ====
section
/-! DEFINITION. The form gate (R150): the request kinds and their codes, and, for each request, the reading of its fields
into the well-made request its block acts on. A field out of its range, a code that names nothing, or a body of the wrong
length reads as `none`, which dispatch answers BAD_REQUEST. -/

namespace Sys2Proof.Machine

/-- The 28 requests (08). -/
inductive RequestKind where
  | hello | bye | dormant | resume | status
  | createRoute | dropRoute | revokeFamily | routeInfo
  | openInlet | closeInlet | setInlet | setLane | receive | inletStatus
  | send
  | createWindow | closeWindow | dropGrant | streamOpen | streamData | streamRead
  | evict | setPort | setReserve | portStatus | storeStatus | systemReset
  deriving DecidableEq, Repr

/-- The request-kind byte (R162). -/
def RequestKind.code : RequestKind → Byte
  | .hello => 0x01 | .bye => 0x02 | .dormant => 0x03 | .resume => 0x04 | .status => 0x05
  | .createRoute => 0x06 | .dropRoute => 0x07 | .revokeFamily => 0x08 | .routeInfo => 0x09
  | .openInlet => 0x0A | .closeInlet => 0x0B | .setInlet => 0x0C | .setLane => 0x0D | .receive => 0x0E
  | .inletStatus => 0x0F | .send => 0x10
  | .createWindow => 0x11 | .closeWindow => 0x12 | .dropGrant => 0x13 | .streamOpen => 0x14 | .streamData => 0x15
  | .streamRead => 0x16
  | .evict => 0x17 | .setPort => 0x18 | .setReserve => 0x19 | .portStatus => 0x1A | .storeStatus => 0x1B
  | .systemReset => 0x1C

/-- The two requests that do not close the port's stream (R140, R149 gate 1). -/
def RequestKind.keepsStream : RequestKind → Bool
  | .streamData => true
  | .streamRead => true
  | _ => false

/-- The six supervision requests (R152). -/
def RequestKind.supervision : RequestKind → Bool
  | .evict | .setPort | .setReserve | .portStatus | .storeStatus | .systemReset => true
  | _ => false

/-- The fields of a body that has the request's length, read by `form`. -/
def formOf {α β : Type} (form : α → Option β) : Body α → Option β
  | .fields f => form f
  | .misshapen _ => none

/-- A request without fields is well made when its body is empty. -/
def formEmpty (body : List Byte) : Option Unit := if body.isEmpty then some () else none

/-- Set or clear: 0x00 clear, 0x01 set, anything else out of range (R162). -/
def flag? : Nat → Option Bool
  | 0 => some false
  | 1 => some true
  | _ => none

/-- A route slot number, 1 to 63. -/
def routeSlot? (n : Nat) : Option (Fin 63) := if n = 0 then none else fin? 63 (n - 1)

/-- A number within `lo` to `hi`. -/
def range? (lo hi n : Nat) : Option Nat := if lo ≤ n ∧ n ≤ hi then some n else none

/-- A set of COPY and PASS, COPY in the least significant bit (R162). -/
def routeRights? (n : Nat) : Option RouteRights :=
  if n < 4 then some { copy := n % 2 == 1, pass := n / 2 == 1 } else none

/-- A set of READ and WRITE (R162). -/
def grantRights? (n : Nat) : Option GrantRights :=
  if n < 4 then some { read := n % 2 == 1, write := n / 2 == 1 } else none

/-- A set of COPIED, PASSED and DROPPED (R162). -/
def notifySet? (n : Nat) : Option NotifySet :=
  if n < 8 then some { copied := n % 2 == 1, passed := n / 2 % 2 == 1, dropped := n / 4 == 1 } else none

/-- HELLO: 17 bytes, the agent class and 16 of name (R109). -/
def formHello (f : HelloFields) : Option HelloFields := if f.name.length = 16 then some f else none

structure CreateRouteOp where
  inlet : Fin 16
  label : Nat
  rights : RouteRights
  quota : Nat
  notify : NotifySet
  deriving DecidableEq, Repr

/-- R49. -/
def formCreateRoute (f : CreateRouteFields) : Option CreateRouteOp := do
  let inlet ← fin? 16 f.inlet
  let label ← range? 0 65535 f.label
  let rights ← routeRights? f.rights
  let quota ← range? 1 Config.quotaMax f.quota
  let notify ← notifySet? f.notify
  return { inlet, label, rights, quota, notify }

structure OpenInletOp where
  inlet : Fin 16
  lane : Fin 4
  depth : Nat
  wake : Bool
  deriving DecidableEq, Repr

/-- R22. -/
def formOpenInlet (f : OpenInletFields) : Option OpenInletOp := do
  let inlet ← fin? 16 f.inlet
  let lane ← fin? 4 f.lane
  let depth ← range? 0 Config.depthMax f.depth
  let wake ← flag? f.wake
  return { inlet, lane, depth, wake }

/-- The mode of CLOSE_INLET (R25). -/
inductive CloseMode where
  | drain
  | discard
  deriving DecidableEq, Repr

def closeMode? : Nat → Option CloseMode
  | 0 => some .drain
  | 1 => some .discard
  | _ => none

structure CloseInletOp where
  inlet : Fin 16
  mode : CloseMode
  deriving DecidableEq, Repr

/-- R25. -/
def formCloseInlet (f : CloseInletFields) : Option CloseInletOp := do
  let inlet ← fin? 16 f.inlet
  let mode ← closeMode? f.mode
  return { inlet, mode }

structure SetInletOp where
  inlet : Fin 16
  depth : Nat
  wake : Bool
  lane : Fin 4
  deriving DecidableEq, Repr

/-- R23. -/
def formSetInlet (f : SetInletFields) : Option SetInletOp := do
  let inlet ← fin? 16 f.inlet
  let depth ← range? 1 Config.depthMax f.depth
  let wake ← flag? f.wake
  let lane ← fin? 4 f.lane
  return { inlet, depth, wake, lane }

def laneMode? : Nat → Option LaneMode
  | 0 => some .push
  | 1 => some .pull
  | _ => none

structure SetLaneOp where
  lane : Fin 4
  mode : LaneMode
  deriving DecidableEq, Repr

/-- R33. -/
def formSetLane (f : SetLaneFields) : Option SetLaneOp := do
  let lane ← fin? 4 f.lane
  let mode ← laneMode? f.mode
  return { lane, mode }

structure ReceiveOp where
  inlet : Fin 16
  count : Nat
  deriving DecidableEq, Repr

/-- R35. -/
def formReceive (f : ReceiveFields) : Option ReceiveOp := do
  let inlet ← fin? 16 f.inlet
  let count ← range? 1 Config.creditMax f.count
  return { inlet, count }

/-- A well-made enclosure spec (R62); the mode is COPY or PASS. A ROUTE spec's quota 0 means the source's. -/
inductive Spec where
  | route (slot : Fin 63) (mode : EnclosureMode) (rights : RouteRights) (quota : Nat)
  | grant (slot : Fin 8) (mode : EnclosureMode) (rights : GrantRights)
  deriving DecidableEq, Repr

def specMode? : Nat → Option EnclosureMode
  | 0 => some .copy
  | 1 => some .pass
  | _ => none

/-- R63, one spec. -/
def formSpec (f : SpecFields) : Option Spec :=
  match f.kind with
  | 0 => do
    let slot ← routeSlot? f.slot
    let mode ← specMode? f.mode
    let rights ← routeRights? f.rights
    let quota ← range? 0 Config.quotaMax f.quota
    return .route slot mode rights quota
  | 1 => do
    let slot ← fin? 8 f.slot
    let mode ← specMode? f.mode
    let rights ← grantRights? f.rights
    let _ ← range? 0 0 f.quota
    return .grant slot mode rights
  | _ => none

def formSpecs : List SpecFields → Option (List Spec)
  | [] => some []
  | f :: fs => do
    let x ← formSpec f
    let xs ← formSpecs fs
    return x :: xs

/-- A well-made SEND; MINT_REPLY is set exactly when a reply inlet is present (R63). -/
structure SendOp where
  slot : Fin 63
  ret : Bool
  reply : Option (Fin 16)
  specs : List Spec
  body : List Byte
  deriving DecidableEq, Repr

/-- The reply inlet of a SEND: present exactly when MINT_REPLY is set (R63). -/
def formReply (mint : Bool) (reply : Option Nat) : Option (Option (Fin 16)) :=
  match mint, reply with
  | true, some n => (fin? 16 n).map some
  | false, none => some none
  | _, _ => none

/-- R63. -/
def formSend (f : SendFields) : Option SendOp := do
  let slot ← routeSlot? f.slot
  let ret ← flag? f.ret
  let mint ← flag? f.mint
  let reply ← formReply mint f.replyInlet
  let specs ← formSpecs f.specs
  let _ ← range? 0 2 (specs.length + if mint then 1 else 0)
  let _ ← range? 0 Config.bodyMax f.body.length
  if f.bodyLength = f.body.length then return { slot, ret, reply, specs, body := f.body } else none

structure CreateWindowOp where
  base : Fin 262144
  limit : Fin 262144
  share : Bool
  deriving DecidableEq, Repr

/-- R133: a base greater than the limit is a fault of form. -/
def formCreateWindow (f : CreateWindowFields) : Option CreateWindowOp := do
  let base ← fin? 262144 f.base
  let limit ← fin? 262144 f.limit
  let share ← flag? f.share
  if base ≤ limit then return { base, limit, share } else none

/-- WRITE or READ (R141). -/
inductive Direction where
  | write
  | read
  deriving DecidableEq, Repr

def direction? : Nat → Option Direction
  | 0 => some .write
  | 1 => some .read
  | _ => none

def order? : Nat → Option StreamOrder
  | 0 => some .ascending
  | 1 => some .descending
  | _ => none

structure StreamOpenOp where
  slot : Fin 8
  direction : Direction
  order : StreamOrder
  deriving DecidableEq, Repr

/-- R141. -/
def formStreamOpen (f : StreamOpenFields) : Option StreamOpenOp := do
  let slot ← fin? 8 f.slot
  let direction ← direction? f.direction
  let order ← order? f.order
  return { slot, direction, order }

/-- R142: 1 to 512 bytes. -/
def formStreamData (data : List Byte) : Option (List Byte) :=
  if 1 ≤ data.length ∧ data.length ≤ 512 then some data else none

/-- R143: a count of 1 to 512. -/
def formStreamRead (n : Nat) : Option Nat := range? 1 512 n

/-- R181: a port other than 0. -/
def formEvict (n : Nat) : Option Port := if n = 0 then none else fin? 8 n

def atnMode? : Nat → Option AtnMode
  | 0 => some .level
  | 1 => some .pulse
  | _ => none

structure SetPortOp where
  port : Port
  settings : PortSettings
  deriving DecidableEq, Repr

/-- R179: base and length sum to at most 262144. -/
def formSetPort (f : SetPortFields) : Option SetPortOp := do
  let port ← fin? 8 f.port
  let timeout ← range? 1 255 f.timeout
  let retryLimit ← range? 0 7 f.retryLimit
  let atnMode ← atnMode? f.atnMode
  let partitionBase ← range? 0 262143 f.base
  let partitionLength ← range? 0 262144 f.length
  if f.base + f.length ≤ 262144 then
    return { port, settings := { timeout, retryLimit, atnMode, partitionBase, partitionLength } }
  else none

/-- R180. -/
def formSetReserve (f : SetReserveFields) : Option SetReserveFields := do
  let cells ← range? 0 512 f.cells
  let descriptors ← range? 0 64 f.descriptors
  return { cells, descriptors }

end Sys2Proof.Machine
end

