-- ==== Sys2Proof/Machine/Access.lean ====
section
/-! DEFINITION. Reading and changing one record of the state: the one home each record has, reached by its port and number. -/

namespace Sys2Proof.Machine

/-- The column of port `p`. -/
def State.col (s : State) (p : Port) : Column := s.columns.get p

/-- The state with the column of port `p` changed. -/
def State.onCol (s : State) (p : Port) (f : Column → Column) : State :=
  { s with columns := s.columns.put p (f (s.columns.get p)) }

/-- The session record of port `p` (R106). -/
def State.session (s : State) (p : Port) : Session := (s.col p).session

def State.onSession (s : State) (p : Port) (f : Session → Session) : State :=
  s.onCol p fun c => { c with session := f c.session }

/-- The delivery engine of port `p` (R82). -/
def State.engine (s : State) (p : Port) : Engine := (s.col p).engine

def State.onEngine (s : State) (p : Port) (f : Engine → Engine) : State :=
  s.onCol p fun c => { c with engine := f c.engine }

/-- The port controller of port `p` (R157). -/
def State.ctl (s : State) (p : Port) : PortController := (s.col p).port

def State.onCtl (s : State) (p : Port) (f : PortController → PortController) : State :=
  s.onCol p fun c => { c with port := f c.port }

/-- The stream of port `p` (R139); `none` is NONE. -/
def State.stream (s : State) (p : Port) : Option Stream := (s.col p).stream

def State.setStream (s : State) (p : Port) (x : Option Stream) : State :=
  s.onCol p fun c => { c with stream := x }

/-- Inlet `i` of agent `p` (R19). -/
def State.inlet (s : State) (p : Port) (i : Fin 16) : Inlet := (s.col p).inlets.get i

def State.onInlet (s : State) (p : Port) (i : Fin 16) (f : Inlet → Inlet) : State :=
  s.onCol p fun c => { c with inlets := c.inlets.put i (f (c.inlets.get i)) }

/-- Lane `l` of agent `p` (R32). -/
def State.lane (s : State) (p : Port) (l : Fin 4) : Lane := (s.col p).lanes.get l

def State.onLane (s : State) (p : Port) (l : Fin 4) (f : Lane → Lane) : State :=
  s.onCol p fun c => { c with lanes := c.lanes.put l (f (c.lanes.get l)) }

/-- Route slot `i` (slot number `i + 1`) of agent `p` (R38); `none` is FREE. -/
def State.route (s : State) (p : Port) (i : Fin 63) : Option RouteCopy := (s.col p).routes.get i

def State.setRoute (s : State) (p : Port) (i : Fin 63) (x : Option RouteCopy) : State :=
  s.onCol p fun c => { c with routes := c.routes.put i x }

/-- Grant slot `i` of agent `p` (R131); `none` is FREE. -/
def State.grant (s : State) (p : Port) (i : Fin 8) : Option Grant := (s.col p).grants.get i

def State.setGrant (s : State) (p : Port) (i : Fin 8) (x : Option Grant) : State :=
  s.onCol p fun c => { c with grants := c.grants.put i x }

/-- Family `f` (R43); `none` is FREE. -/
def State.family (s : State) (f : Fin 256) : Option Family := s.families.get f

def State.setFamily (s : State) (f : Fin 256) (x : Option Family) : State :=
  { s with families := s.families.put f x }

/-- Window `w` (R128); `none` is FREE. -/
def State.window (s : State) (w : Fin 32) : Option Window := s.windows.get w

def State.setWindow (s : State) (w : Fin 32) (x : Option Window) : State :=
  { s with windows := s.windows.put w x }

def State.onStore (s : State) (f : Store → Store) : State := { s with store := f s.store }

/-- The settings of port `p` (R176). -/
def State.settings (s : State) (p : Port) : PortSettings := s.config.ports.get p

/-- The supervisor flag of a port (R109, R152, R178): set for port 0 while the sampled strap was high. -/
def State.supervisorFlag (s : State) (p : Port) : Bool := decide (p = 0) && s.supervisor

end Sys2Proof.Machine
end

