-- ==== Sys2Proof/Machine/Flags.lean ====
section
/-! DEFINITION. The counters that stop, the counters that wrap, and the attention line. -/

namespace Sys2Proof.Machine

/-- A counter that stops at `top` (00 "Counters"). -/
def stepUpTo (top n : Nat) : Nat := if n < top then n + 1 else n

/-- The next message number or copy serial: 1 to 65535, wrapping to 1 (R6, R7). -/
def nextNumber (n : Nat) : Nat := if n < 65535 then n + 1 else 1

/-- The next delivery number or generation: from 0 to 1, from n to n + 1, from 255 to 1 (R85, R108). -/
def nextByteNumber (n : Nat) : Nat := if n < 255 then n + 1 else 1

/-- One more in one of the six port counters (R173). -/
def State.count (s : State) (p : Port) (f : Counters → Counters) : State :=
  s.onCtl p fun c => { c with counters := f c.counters }

def Counters.addFrameIn (c : Counters) : Counters := { c with framesIn := stepUpTo Config.stop16 c.framesIn }
def Counters.addFrameError (c : Counters) : Counters := { c with frameErrors := stepUpTo Config.stop16 c.frameErrors }
def Counters.addStray (c : Counters) : Counters := { c with stray := stepUpTo Config.stop16 c.stray }
def Counters.addOverrun (c : Counters) : Counters := { c with overruns := stepUpTo Config.stop16 c.overruns }
def Counters.addCompleted (c : Counters) : Counters := { c with completed := stepUpTo Config.stop16 c.completed }
def Counters.addAbandoned (c : Counters) : Counters := { c with abandoned := stepUpTo Config.stop16 c.abandoned }

/-- The waiting set of a port is non-empty (R172): a response in the queue, or a PRESENTED delivery. -/
def Column.waiting (c : Column) : Bool :=
  !c.port.responses.isEmpty || decide (c.engine.state = .presented)

/-- Everything a port's attention line is driven from (R117, R172). -/
structure AtnDrive where
  live : Bool
  session : SessionState
  wake : Bool
  mode : AtnMode
  waiting : Bool
  deriving DecidableEq, Repr

/-- What drives ATN of port `p` in a state; `live` is: out of reset and RUNNING. -/
def State.atnDrive (s : State) (p : Port) : AtnDrive :=
  { live := !s.rstnLow && decide (s.controller = .running), session := (s.session p).state,
    wake := (s.session p).wakePending, mode := (s.settings p).atnMode, waiting := (s.col p).waiting }

/-- The line after an event, from what drove it before and what drives it after (R172). An event that changes none of it
leaves the line. A pulse under way runs on while the port stays in PULSE mode, ATTACHED or WITHDRAWING; where the event
takes the port out of that, the line follows the new state (DEDUCED, unsafe: log 6). -/
def atnNext (before after : AtnDrive) (line : Atn) : Atn :=
  if before = after then line
  else if after.live = false then .released
  else
    match after.session with
    | .vacant => .released
    | .dormant => if after.wake then .asserted else .released
    | .attached | .withdrawing =>
      match after.mode with
      | .level => if after.waiting then .asserted else .released
      | .pulse =>
        if line = .pulsing then .pulsing
        else if before.waiting = false ∧ after.waiting = true then .pulsing
        else .released

/-- The column of `after` with its ATN line following the event that led from `before` to `after`. -/
def followColumn (before after : State) (p : Port) (c : Column) : Column :=
  { c with port := { c.port with atn := atnNext (before.atnDrive p) (after.atnDrive p) c.port.atn } }

/-- `after` with every ATN line following the event that led to it from `before` (R172: "the line follows each event"). -/
def followAtn (before after : State) : State :=
  (List.finRange 8).foldl (fun s p => s.onCol p (followColumn before after p)) after

/-- An event of the part outside request dispatch: nothing happens while RSTN holds the part halted (R156). -/
def event (s : State) (act : State → State) : State :=
  if s.rstnLow then s else followAtn s (act s)

end Sys2Proof.Machine
end

