-- ==== Sys2Proof/Machine/Wire.lean ====
section
/-! DEFINITION. The bytes of outbound frames (R160 to R165): number encodings, the CRC, and the bodies of RESPONSE, DELIVER
and IDLE frames and of notices. Multi-byte numbers are sent most significant byte first. -/

namespace Sys2Proof.Machine

/-- A number in one byte. -/
def byteOf (n : Nat) : Byte := BitVec.ofNat 8 n

/-- A number in two bytes, most significant first (R162). -/
def be16 (n : Nat) : List Byte := [byteOf (n / 256), byteOf n]

/-- A number in four bytes, most significant first; a negative cursor in two's complement (R162). -/
def be32 (z : Int) : List Byte :=
  let n := (BitVec.ofInt 32 z).toNat
  [byteOf (n / 16777216), byteOf (n / 65536), byteOf (n / 256), byteOf n]

/-- Set or clear (R162). -/
def flagByte (b : Bool) : Byte := if b then 1 else 0

/-- One bit of the CRC register moved (R161): polynomial x^16 + x^12 + x^5 + 1, most significant bit first. -/
def crcShift (crc : BitVec 16) : BitVec 16 :=
  if crc.getMsbD 0 then (crc <<< 1) ^^^ 0x1021#16 else crc <<< 1

/-- One byte entered into the CRC register (R161). -/
def crcByte (crc : BitVec 16) (b : Byte) : BitVec 16 :=
  let x := crc ^^^ ((b.zeroExtend 16) <<< 8)
  crcShift (crcShift (crcShift (crcShift (crcShift (crcShift (crcShift (crcShift x)))))))

/-- The CRC of a run of bytes (R161): the register starts at all ones, no final XOR. -/
def crc16 (bytes : List Byte) : BitVec 16 := bytes.foldl crcByte 0xFFFF#16

/-- A whole frame (R160): sync, kind, tag, length, body, CRC over everything but the sync byte. -/
def frameBytes (kind tag : Byte) (body : List Byte) : List Byte :=
  let covered := kind :: tag :: (be16 body.length ++ body)
  0xC3#8 :: (covered ++ be16 (crc16 covered).toNat)

/-! ### Codes of named values and of sets (R162), in the order of the record that defines them -/

def SessionState.code : SessionState → Byte
  | .vacant => 0 | .attached => 1 | .dormant => 2 | .withdrawing => 3
def ControllerState.code : ControllerState → Byte
  | .starting => 0 | .running => 1
def EngineState.code : EngineState → Byte
  | .idle => 0 | .presented => 1 | .sent => 2
/-- A route slot's state as in R38: FREE 0, LIVE 1, STALE 2, RESERVED 3. -/
def CopyState.code : CopyState → Byte
  | .live => 1 | .stale => 2 | .reserved => 3
/-- A family's state as in R43: FREE 0, ACTIVE 1, REVOKED 2. -/
def FamilyState.code : FamilyState → Byte
  | .active => 1 | .revoked => 2
def FamilyKind.code : FamilyKind → Byte
  | .ordinary => 0 | .single => 1
def InletState.code : InletState → Byte
  | .closed => 0 | .opened => 1 | .draining => 2
def LaneMode.code : LaneMode → Byte
  | .push => 0 | .pull => 1
def AtnMode.code : AtnMode → Byte
  | .level => 0 | .pulse => 1
/-- A stream's state as in R139: NONE 0, WRITE 1, READ 2, BROKEN 3. -/
def streamCode : Option StreamState → Byte
  | none => 0 | some .write => 1 | some .read => 2 | some .broken => 3
def EnclosureMode.code : EnclosureMode → Byte
  | .copy => 0 | .pass => 1 | .minted => 2
def DropReason.code : DropReason → Byte
  | .noSlot => 0 | .revoked => 1
def RouteRights.code (r : RouteRights) : Byte :=
  byteOf ((if r.copy then 1 else 0) + (if r.pass then 2 else 0))
def GrantRights.code (r : GrantRights) : Byte :=
  byteOf ((if r.read then 1 else 0) + (if r.write then 2 else 0))
/-- "Head in delivery: yes, no" (R31) is a named value, numbered in the order listed: yes 0, no 1 (DEDUCED, unsafe: log 8). -/
def yesNoCode (b : Bool) : Byte := if b then 0 else 1

/-- Status codes in the order of the table of R155. -/
def Status.code : Status → Byte
  | .ok => 0 | .already => 1 | .queued => 2 | .empty => 3 | .notAttached => 4 | .notPermitted => 5 | .badRequest => 6
  | .badState => 7 | .busy => 8 | .fixed => 9 | .noRoute => 10 | .noGrant => 11 | .revoked => 12 | .quota => 13
  | .inletClosed => 14 | .inletFull => 15 | .noRight => 16 | .badEnclosure => 17 | .storeFull => 18 | .noFamily => 19
  | .tableFull => 20 | .noWindow => 21 | .outOfPartition => 22 | .windowRevoked => 23 | .frameError => 24

/-- The number of route slot index `i` (R38): 1 to 63. -/
def slotByte (i : Fin 63) : Byte := byteOf (i.val + 1)

def PortSettings.bytes (x : PortSettings) : List Byte :=
  [byteOf x.timeout, byteOf x.retryLimit, x.atnMode.code] ++ be32 x.partitionBase ++ be32 x.partitionLength

def Counters.bytes (c : Counters) : List Byte :=
  be16 c.framesIn ++ be16 c.frameErrors ++ be16 c.stray ++ be16 c.overruns ++ be16 c.completed ++ be16 c.abandoned

/-- R115. -/
def StatusReport.bytes (r : StatusReport) : List Byte :=
  [byteOf r.port.val, r.controller.code, r.session.code, byteOf r.generation, flagByte r.supervisor,
   flagByte r.wakePending, byteOf r.lost, r.delivery.code, byteOf r.number]

/-- R51. -/
def RouteReport.bytes (r : RouteReport) : List Byte :=
  [slotByte r.slot, r.state.code, byteOf r.family.val, r.rights.code, byteOf r.quota, byteOf r.outstanding]
    ++ be16 r.serial ++ [r.familyState.code, r.kind.code] ++ be16 r.label
    ++ [byteOf r.targetPort.val, byteOf r.targetInlet.val]

/-- R31. -/
def InletReport.bytes (r : InletReport) : List Byte :=
  [byteOf r.inlet.val, r.state.code, byteOf r.lane.val, r.mode.code, byteOf r.depth, flagByte r.wake, byteOf r.length,
   yesNoCode r.headInDelivery] ++ be16 r.headNumber ++ [byteOf r.credit] ++ be16 r.refusedFull

/-- R182. -/
def PortReport.bytes (r : PortReport) : List Byte :=
  [byteOf r.port.val, r.session.code, byteOf r.generation, r.agentClass] ++ r.name
    ++ [flagByte r.wakePending, byteOf r.lost, flagByte r.helloHeld, flagByte r.byeHeld, r.delivery.code,
        byteOf r.number, streamCode r.stream, byteOf r.waiting, byteOf r.overrun]
    ++ r.settings.bytes ++ r.counters.bytes

/-- R183. -/
def StoreReport.bytes (r : StoreReport) : List Byte :=
  be16 r.freeCells ++ be16 r.freeDescriptors ++ be16 r.inUse ++ be16 r.reserveCells ++ [byteOf r.reserveDescriptors]
    ++ be16 r.nextMessage ++ be16 r.nextSerial ++ be16 r.refused ++ be16 r.lost ++ be16 r.freeFamilies
    ++ [byteOf r.freeWindows]

/-- The result fields of a response (R162: fields in the order their chapter lists them). The two counts of
REVOKE_FAMILY, whose ranges R53 does not state, take two bytes each (DEDUCED, unsafe: log 9). -/
def Result.bytes : Result → List Byte
  | .none => []
  | .hello p g v => [byteOf p.val, byteOf g, flagByte v]
  | .status r => r.bytes
  | .createRoute slot f serial => [slotByte slot, byteOf f.val] ++ be16 serial
  | .dropRoute f n => byteOf f.val :: be16 n
  | .revokeFamily stale n => be16 stale ++ be16 n
  | .routeInfo r => r.bytes
  | .closeInlet st d r => [st.code, byteOf d] ++ be16 r
  | .receive c => [byteOf c]
  | .inletStatus r => r.bytes
  | .send n minted =>
    be16 n ++ (match minted with | Option.none => [] | Option.some f => [byteOf f.val])
  | .createWindow w g => [byteOf w.val, byteOf g.val]
  | .closeWindow w stale broken n => [byteOf w.val, byteOf stale, byteOf broken] ++ be16 n
  | .dropGrant w n => byteOf w.val :: be16 n
  | .streamOpen w b l r c => byteOf w.val :: (be32 b.val ++ be32 l.val ++ [r.code] ++ be32 c)
  | .streamData w d c => be16 w ++ be16 d ++ be32 c
  | .streamRead bs c => be16 bs.length ++ bs ++ be32 c
  | .setPort x => x.bytes
  | .setReserve c d fc fd => be16 c ++ [byteOf d] ++ be16 fc ++ be16 fd
  | .portStatus r => r.bytes
  | .storeStatus r => r.bytes
  | .systemReset v => [flagByte v]

/-- A RESPONSE frame (R162): request kind, status, overrun count, result fields; the tag of the request answered. -/
def Response.frame (r : Response) (overrun : Nat) : List Byte :=
  frameBytes 0x81 r.tag (r.kind :: r.status.code :: byteOf overrun :: r.result.bytes)

/-- The sender port field (R4, R90): 0 to 7, or 8 for the controller. -/
def Sender.portNumber : Sender → Nat
  | .agent p _ _ _ => p.val
  | .controller => 8

/-- The sender generation field (R4, R90): 0 for the controller. -/
def Sender.generationNumber : Sender → Nat
  | .agent _ g _ _ => g
  | .controller => 0

/-- Outcome and slot or drop reason of a settled enclosure (R163). An entry of a frame is never IN_TRANSIT. -/
def Settlement.bytes {Slot : Type} (slotNumber : Slot → Byte) : Settlement Slot → List Byte
  | .inTransit => [0, 0]
  | .reserved i => [0, slotNumber i]
  | .dropped r => [1, r.code]

/-- One enclosure entry of a DELIVER frame, 7 bytes (R163). -/
def Enclosure.bytes : Enclosure → List Byte
  | .route f m r q st => [0, m.code, byteOf f.val] ++ st.bytes slotByte ++ [r.code, byteOf q]
  | .grant w m r st => [1, m.code, byteOf w.val] ++ st.bytes (fun i => byteOf i.val) ++ [r.code, 0]

/-- The body of a DELIVER frame (R163). -/
def DeliverFrame.body' (d : DeliverFrame) : List Byte :=
  [byteOf d.number, byteOf d.inlet.val, byteOf d.sender.portNumber, byteOf d.sender.generationNumber]
    ++ be16 d.label ++ be16 d.messageNumber ++ [flagByte d.ret, byteOf d.entries.length]
    ++ d.entries.flatMap Enclosure.bytes ++ be16 d.body.length ++ d.body

/-- The DELIVER frame on the wire (R160, R163). -/
def DeliverFrame.bytes (d : DeliverFrame) : List Byte := frameBytes 0x82 0 d.body'

end Sys2Proof.Machine
end

