-- ==== Sys2Proof/Machine/Ops.lean ====
section
/-! DEFINITION. The shared operations: bulk memory, the message store, notices, the counts of copies and grants, revocation,
release and destruction, and the delivery engine's handling of reserved slots. Every meaning is written over these. -/

namespace Sys2Proof.Machine

/-! ### Bulk memory (R126) -/

/-- The byte of bulk memory at an offset; an unlisted offset reads 0, its power-on content (R126). -/
def Memory.read : List Host.Cell → Nat → Byte
  | [], _ => 0
  | (a, b) :: m, x => if a = x then b else Memory.read m x

/-- A byte stored at an offset, keeping the canonical form: a 0 is not listed. -/
def Memory.write : List Host.Cell → Nat → Byte → List Host.Cell
  | [], x, v => if v = 0 then [] else [(x, v)]
  | (a, b) :: m, x, v =>
    if x < a then (if v = 0 then (a, b) :: m else (x, v) :: (a, b) :: m)
    else if x = a then (if v = 0 then m else (x, v) :: m)
    else (a, b) :: Memory.write m x v

/-- Every listed offset is at least `lo`, offsets rise strictly, no listed byte is 0 and none lies outside bulk memory. -/
def Memory.wfFrom (lo : Nat) : List Host.Cell → Bool
  | [] => true
  | (a, b) :: m => decide (lo ≤ a) && decide (a < Config.bulkBytes) && decide (b ≠ 0) && Memory.wfFrom (a + 1) m

/-- The canonical form of bulk memory: offsets strictly rising and within 0 to 262143, no entry equal to the 0 that an
unlisted offset reads as. -/
def Memory.wf (m : List Host.Cell) : Bool := Memory.wfFrom 0 m

/-! ### The store: free pools and numbers (R1, R2, R3, R6, R7) -/

/-- The descriptors in use: each stands in exactly one inlet queue (R10). -/
def Column.descriptors (c : Column) : List Descriptor := c.inlets.cells.flatMap (·.queue)

def State.descriptors (s : State) : List Descriptor := s.columns.cells.flatMap Column.descriptors

/-- The numbers of the body cells held by descriptors in use (R1). -/
def State.cellsHeld (s : State) : List Nat := s.descriptors.flatMap fun d => d.cells.map (·.number)

/-- Cells a body of `n` bytes occupies (R3). -/
def cellsFor (n : Nat) : Nat := (n + 31) / 32

/-- The lowest `wanted` numbers from `n` on that are not used. `fuel` bounds the search: one step for each number
passed, so as many as there are used numbers and wanted ones suffice. -/
def lowestUnused (used : List Nat) : (fuel : Nat) → (n : Nat) → (wanted : Nat) → List Nat
  | 0, _, _ => []
  | _ + 1, _, 0 => []
  | k + 1, n, w + 1 =>
    if used.contains n then lowestUnused used k (n + 1) (w + 1) else n :: lowestUnused used k (n + 1) w

/-- The lowest-numbered free descriptor (R2). -/
def State.freeDescriptor (s : State) : Nat :=
  let used := s.descriptors.map (·.number)
  (lowestUnused used (used.length + 1) 0 1).headD 0

/-- The lowest-numbered `k` free cells (R2). -/
def State.freeCellNumbers (s : State) (k : Nat) : List Nat :=
  lowestUnused s.cellsHeld (s.cellsHeld.length + k) 0 k

/-- A body copied into cells in order, 32 bytes a cell (R3). -/
def fillCells : List Nat → List Byte → List BodyCell
  | [], _ => []
  | n :: ns, bytes => { number := n, bytes := bytes.take Config.cellBytes } :: fillCells ns (bytes.drop Config.cellBytes)

/-- The body of a message, read from its cells in order (R3). -/
def Descriptor.body (d : Descriptor) : List Byte := d.cells.flatMap (·.bytes)

/-- A counter moved past every value in use (R6, R7); `fuel` bounds the search. -/
def advancePast (used : List Nat) : (fuel : Nat) → Nat → Nat
  | 0, n => n
  | k + 1, n => if used.contains n then advancePast used k (nextNumber n) else n

/-- A message number drawn (R6): the first value, from the counter on, that no descriptor in use carries. -/
def State.drawMessage (s : State) : Nat × State :=
  let used := s.descriptors.map (·.messageNumber)
  let n := advancePast used used.length s.store.nextMessage
  (n, s.onStore fun x => { x with nextMessage := nextNumber n })

/-- The serials in use (R7): those of route slots that are not FREE and those recorded as sender serials. -/
def Sender.serials : Sender → List Nat
  | .agent _ _ _ serial => [serial]
  | .controller => []

def Column.serials (c : Column) : List Nat :=
  c.routes.cells.flatMap fun
    | some r => [r.serial]
    | none => []

def State.serialsInUse (s : State) : List Nat :=
  s.columns.cells.flatMap Column.serials ++ s.descriptors.flatMap fun d => d.sender.serials

/-- A copy serial drawn (R7). -/
def State.drawSerial (s : State) : Nat × State :=
  let used := s.serialsInUse
  let n := advancePast used used.length s.store.nextSerial
  (n, s.onStore fun x => { x with nextSerial := nextNumber n })

/-- The store can take a body of `n` bytes, the reserve apart (R2). -/
def State.hasRoom (s : State) (n : Nat) : Bool :=
  decide (1 ≤ s.store.freeDescriptors) && decide (cellsFor n ≤ s.store.freeCells)

/-! ### Appending a message (R20, R24) -/

/-- A message appended to the tail of an inlet's queue; a wake inlet of a DORMANT agent raises wake pending (R24, R116). -/
def State.append (s : State) (p : Port) (i : Fin 16) (d : Descriptor) : State :=
  let s := s.onInlet p i fun x => { x with queue := x.queue ++ [d] }
  if (s.session p).state = .dormant ∧ (s.inlet p i).wake = true then
    s.onSession p fun x => { x with wakePending := true }
  else s

/-- What a new message is made of, before the store gives it its descriptor and cells. -/
structure NewMessage where
  messageNumber : Nat
  sender : Sender
  targetPort : Port
  targetInlet : Fin 16
  ret : Bool
  label : Nat
  enclosures : List Enclosure
  body : List Byte
  deriving DecidableEq, Repr

/-- The descriptor of a new message: the lowest free descriptor and cells, the body copied in, QUEUED (R2, R3, R4). -/
def State.fillDescriptor (s : State) (m : NewMessage) : Descriptor :=
  { number := s.freeDescriptor, messageNumber := m.messageNumber, sender := m.sender, targetPort := m.targetPort,
    targetInlet := m.targetInlet, ret := m.ret, label := m.label, lifecycle := .queued, enclosures := m.enclosures,
    bodyLength := m.body.length, cells := fillCells (s.freeCellNumbers (cellsFor m.body.length)) m.body }

/-- A message enters the store and its target queue in one event (R1, R10). -/
def State.place (s : State) (m : NewMessage) : State :=
  let d := s.fillDescriptor m
  let s := s.onStore fun x =>
    { x with freeDescriptors := x.freeDescriptors - 1, freeCells := x.freeCells - d.cells.length }
  s.append m.targetPort m.targetInlet d

/-! ### Notices (R14 to R17) -/

/-- Reason of a ROUTE_DROPPED notice (R15). -/
inductive RouteDropReason where
  | dropped
  | noSlot
  | abandoned
  | withdrawn
  deriving DecidableEq, Repr

/-- Reason of an UNDELIVERED notice (R15). -/
inductive LossReason where
  | retryExhausted
  | inletDiscarded
  | targetWithdrawn
  deriving DecidableEq, Repr

/-- A notice (R15), its lost count apart. -/
inductive Notice where
  | routeCopied (family : Fin 256) (receiver : Port)
  | routePassed (family : Fin 256) (sender receiver : Port)
  | routeDropped (family : Fin 256) (holder : Port) (reason : RouteDropReason)
  | familyEmpty (family : Fin 256)
  | undelivered (messageNumber : Nat) (target : Port) (inlet : Fin 16) (reason : LossReason)
  deriving DecidableEq, Repr

/-- A notice called for, with its addressee's port and generation (R16). -/
structure NoticeCall where
  port : Port
  generation : Nat
  notice : Notice
  deriving DecidableEq, Repr

def RouteDropReason.code : RouteDropReason → Byte
  | .dropped => 0 | .noSlot => 1 | .abandoned => 2 | .withdrawn => 3

def LossReason.code : LossReason → Byte
  | .retryExhausted => 0 | .inletDiscarded => 1 | .targetWithdrawn => 2

/-- The 16 bytes of a notice body (R165). -/
def Notice.bytes (lost : Nat) : Notice → List Byte
  | .routeCopied f q => [0, byteOf lost, byteOf f.val, byteOf q.val] ++ List.replicate 12 0
  | .routePassed f p q => [1, byteOf lost, byteOf f.val, byteOf q.val, byteOf p.val] ++ List.replicate 11 0
  | .routeDropped f q r => [2, byteOf lost, byteOf f.val, byteOf q.val, 0, r.code] ++ List.replicate 10 0
  | .familyEmpty f => [3, byteOf lost, byteOf f.val] ++ List.replicate 13 0
  | .undelivered n q i r =>
    [4, byteOf lost, 0, 0, 0, r.code] ++ be16 n ++ [byteOf q.val, byteOf i.val] ++ List.replicate 6 0

/-- The addressee test of R16. -/
def State.hears (s : State) (c : NoticeCall) : Bool :=
  (decide ((s.session c.port).state = .attached) || decide ((s.session c.port).state = .dormant))
    && decide ((s.session c.port).generation = c.generation)

/-- Room for a notice (R17): a descriptor, a cell, and a place in inlet 0. -/
def State.noticeRoom (s : State) (p : Port) : Bool :=
  s.hasRoom 16 && decide ((s.inlet p 0).queue.length < (s.inlet p 0).depth)

/-- A notice created (R14): it carries the addressee's notices-lost count, which returns to 0 (R17). -/
def State.addNotice (s : State) (c : NoticeCall) : State :=
  let body := c.notice.bytes (s.session c.port).lost
  let (n, s) := s.drawMessage
  let m : NewMessage :=
    { messageNumber := n, sender := .controller, targetPort := c.port, targetInlet := 0, ret := false, label := 0,
      enclosures := [], body := body }
  (s.place m).onSession c.port fun x => { x with lost := 0 }

/-- A notice lost (R17): the addressee's count and the store's total rise, and inlet 0's refused-full count when its queue
stands at its depth limit (R30). -/
def State.loseNotice (s : State) (c : NoticeCall) : State :=
  let s := s.onSession c.port fun x => { x with lost := stepUpTo Config.stop8 x.lost }
  let s := s.onStore fun x => { x with lost := stepUpTo Config.stop16 x.lost }
  s.onInlet c.port 0 fun x =>
    if x.queue.length < x.depth then x else { x with refusedFull := stepUpTo Config.stop16 x.refusedFull }

/-- The notice generator takes one call (R14, R16, R17). -/
def State.notify (s : State) (c : NoticeCall) : State :=
  if s.hears c then (if s.noticeRoom c.port then s.addNotice c else s.loseNotice c) else s

/-- The calls of one event, in their order (R15). -/
def State.notifyAll (s : State) (calls : List NoticeCall) : State := calls.foldl State.notify s

/-! ### Copy counts and grant counts (R45, R46, R130) -/

/-- The ROUTE_DROPPED a creator is due (R47): the family is ACTIVE and notifies DROPPED. -/
def State.routeDropped (s : State) (f : Fin 256) (holder : Port) (reason : RouteDropReason) : List NoticeCall :=
  match s.family f with
  | some x =>
    if x.state = .active ∧ x.notify.dropped = true then
      [{ port := x.creator, generation := x.generation, notice := .routeDropped f holder reason }]
    else []
  | none => []

/-- A family's copy count falls by one; at 0 the family becomes FREE, and an ACTIVE ORDINARY one calls for FAMILY_EMPTY
(R45, R46). -/
def State.lowerFamily (s : State) (f : Fin 256) : State × List NoticeCall :=
  match s.family f with
  | some x =>
    if x.copies ≤ 1 then
      (s.setFamily f none,
        if x.state = .active ∧ x.kind = .ordinary then
          [{ port := x.creator, generation := x.generation, notice := .familyEmpty f }]
        else [])
    else (s.setFamily f (some { x with copies := x.copies - 1 }), [])
  | none => (s, [])

/-- A copy of a family ceases: its count falls, and the notices called for are ROUTE_DROPPED first and FAMILY_EMPTY after
it (R46, R47). -/
def State.endCopy (s : State) (f : Fin 256) (holder : Port) (reason : RouteDropReason) : State × List NoticeCall :=
  let (s', empty) := s.lowerFamily f
  (s', s.routeDropped f holder reason ++ empty)

/-- A window's grant count falls by one; at 0 the window becomes FREE (R130). -/
def State.lowerWindow (s : State) (w : Fin 32) : State :=
  match s.window w with
  | some x => if x.grants ≤ 1 then s.setWindow w none else s.setWindow w (some { x with grants := x.grants - 1 })
  | none => s

/-- A family's copy count rises by one (R75). -/
def State.raiseFamily (s : State) (f : Fin 256) : State :=
  match s.family f with
  | some x => s.setFamily f (some { x with copies := x.copies + 1 })
  | none => s

/-- A window's grant count rises by one (R75). -/
def State.raiseWindow (s : State) (w : Fin 32) : State :=
  match s.window w with
  | some x => s.setWindow w (some { x with grants := x.grants + 1 })
  | none => s

/-! ### Revocation (R52, R135) -/

def staleRoute (f : Fin 256) : Option RouteCopy → Option RouteCopy
  | some r => if r.state = .live ∧ r.family = f then some { r with state := .stale } else some r
  | none => none

def liveRoute (f : Fin 256) : Option RouteCopy → Bool
  | some r => decide (r.state = .live) && decide (r.family = f)
  | none => false

/-- A family revoked (R52): REVOKED, and every LIVE slot naming it, of every agent, STALE. -/
def State.revokeFamily (s : State) (f : Fin 256) : State :=
  match s.family f with
  | some x =>
    let s := s.setFamily f (some { x with state := .revoked })
    { s with columns := s.columns.map fun c => { c with routes := c.routes.map (staleRoute f) } }
  | none => s

/-- The number of LIVE slots that name a family, over all agents (R53). -/
def State.liveRoutes (s : State) (f : Fin 256) : Nat :=
  (s.columns.cells.map fun c => c.routes.count (liveRoute f)).sum

/-- The ACTIVE families that a test picks out, in ascending number. -/
def State.activeFamilies (s : State) (pick : Family → Bool) : List (Fin 256) :=
  s.families.matching fun
    | some x => decide (x.state = .active) && pick x
    | none => false

/-- Every ACTIVE family of a creator port and generation (R59). -/
def createdBy (p : Port) (generation : Nat) (x : Family) : Bool :=
  decide (x.creator = p) && decide (x.generation = generation)

/-- Every ACTIVE family of a creator port and generation on one inlet (R25, R54). -/
def boundTo (p : Port) (generation : Nat) (i : Fin 16) (x : Family) : Bool :=
  createdBy p generation x && decide (x.targetInlet = i)

def State.revokeFamilies (s : State) (fs : List (Fin 256)) : State := fs.foldl State.revokeFamily s

def staleGrant (w : Fin 32) : Option Grant → Option Grant
  | some g => if g.state = .live ∧ g.window = w then some { g with state := .stale } else some g
  | none => none

def liveGrant (w : Fin 32) : Option Grant → Bool
  | some g => decide (g.state = .live) && decide (g.window = w)
  | none => false

def breakStream (w : Fin 32) : Option Stream → Option Stream
  | some x => if x.state ≠ .broken ∧ x.window = w then some { x with state := .broken } else some x
  | none => none

def openOn (w : Fin 32) : Option Stream → Bool
  | some x => decide (x.state ≠ .broken) && decide (x.window = w)
  | none => false

/-- A window revoked (R135): REVOKED, every LIVE grant slot naming it STALE, every open stream over it BROKEN. -/
def State.revokeWindow (s : State) (w : Fin 32) : State :=
  match s.window w with
  | some x =>
    let s := s.setWindow w (some { x with state := .revoked })
    { s with columns := s.columns.map fun c =>
        { c with grants := c.grants.map (staleGrant w), stream := breakStream w c.stream } }
  | none => s

/-- The number of LIVE grant slots that name a window, over all agents (R134). -/
def State.liveGrants (s : State) (w : Fin 32) : Nat :=
  (s.columns.cells.map fun c => c.grants.count (liveGrant w)).sum

/-- The number of streams open on a window, over all ports (R134). -/
def State.openStreams (s : State) (w : Fin 32) : Nat :=
  s.columns.cells.countP fun c => openOn w c.stream

/-- The OPEN windows of an owner port and generation, in ascending number (R145). -/
def State.openWindows (s : State) (p : Port) (generation : Nat) : List (Fin 32) :=
  s.windows.matching fun
    | some x => decide (x.state = .opened) && decide (x.owner = p) && decide (x.generation = generation)
    | none => false

def State.revokeWindows (s : State) (ws : List (Fin 32)) : State := ws.foldl State.revokeWindow s

/-! ### The end of a message (R11, R12, R13, R28) -/

/-- A message leaves its inlet's queue and its descriptor and cells return to the free pools (R11 steps 1 and 2, R12 step 1). -/
def State.takeOut (s : State) (p : Port) (i : Fin 16) (d : Descriptor) : State :=
  let s := s.onInlet p i fun x => { x with queue := x.queue.erase d }
  s.onStore fun x =>
    { x with freeDescriptors := x.freeDescriptors + 1, freeCells := x.freeCells + d.cells.length }

/-- The decrement test (R13): the sending copy's outstanding count falls if port, generation, slot and serial still match. -/
def State.decrement (s : State) : Sender → State
  | .controller => s
  | .agent q generation slot serial =>
    if (s.session q).state ≠ .vacant ∧ (s.session q).generation = generation then
      match s.route q slot with
      | some r =>
        if r.state ≠ .reserved ∧ r.serial = serial then
          s.setRoute q slot (some { r with outstanding := r.outstanding - 1 })
        else s
      | none => s
    else s

/-- Why a message is destroyed (R12): the first three causes. -/
inductive DestroyCause where
  | abandonment
  | discard
  | withdrawal
  deriving DecidableEq, Repr

/-- The reason of the ROUTE_DROPPED notices of a destruction (R12 step 3). -/
def DestroyCause.route : DestroyCause → RouteDropReason
  | .abandonment => .abandoned
  | .discard => .abandoned
  | .withdrawal => .withdrawn

/-- The reason of the UNDELIVERED notice of a destruction (R12 step 4). -/
def DestroyCause.loss : DestroyCause → LossReason
  | .abandonment => .retryExhausted
  | .discard => .inletDiscarded
  | .withdrawal => .targetWithdrawn

/-- The enclosures still IN_TRANSIT are destroyed, in list order (R12 step 3). -/
def State.endEnclosures (s : State) (p : Port) (reason : RouteDropReason) : List Enclosure → State × List NoticeCall
  | [] => (s, [])
  | .route f _ _ _ .inTransit :: es =>
    let (s, calls) := s.endCopy f p reason
    let (s, more) := s.endEnclosures p reason es
    (s, calls ++ more)
  | .grant w _ _ .inTransit :: es => (s.lowerWindow w).endEnclosures p reason es
  | _ :: es => s.endEnclosures p reason es

/-- The UNDELIVERED notice a sender is due (R12 step 4). -/
def Descriptor.undelivered (d : Descriptor) (reason : LossReason) : List NoticeCall :=
  match d.sender with
  | .agent q generation _ _ =>
    if d.ret then
      [{ port := q, generation := generation,
         notice := .undelivered d.messageNumber d.targetPort d.targetInlet reason }]
    else []
  | .controller => []

/-- The store destroys a message (R12); `earlier` are the notices its engine called for before (R99, R100). -/
def State.destroy (s : State) (p : Port) (i : Fin 16) (d : Descriptor) (cause : DestroyCause)
    (earlier : List NoticeCall) : State :=
  let s := (s.takeOut p i d).decrement d.sender
  let (s, calls) := s.endEnclosures p cause.route d.enclosures
  s.notifyAll (earlier ++ calls ++ d.undelivered cause.loss)

/-- A DRAINING inlet whose queue has become empty is CLOSED, its pull credit 0 (R28). -/
def State.settleDrain (s : State) (p : Port) (i : Fin 16) : State :=
  s.onInlet p i fun x =>
    if x.state = .draining ∧ x.queue.isEmpty = true then { x with state := .closed, credit := 0 } else x

/-! ### The delivery engine's slots (R42, R88, R95, R99, R102) -/

/-- The current message of a port's engine: the head of its current inlet (R83). -/
def State.current (s : State) (p : Port) : Option (Fin 16 × Descriptor) :=
  match (s.engine p).current with
  | some i =>
    match (s.inlet p i).queue with
    | d :: _ => some (i, d)
    | [] => none
  | none => none

/-- The head of an inlet's queue changed. -/
def State.onHead (s : State) (p : Port) (i : Fin 16) (f : Descriptor → Descriptor) : State :=
  s.onInlet p i fun x =>
    match x.queue with
    | d :: ds => { x with queue := f d :: ds }
    | [] => x

/-- Every RESERVED slot of a message is freed, in list order (R99, R102). -/
def State.freeReserved (s : State) (p : Port) (reason : RouteDropReason) : List Enclosure → State × List NoticeCall
  | [] => (s, [])
  | .route f _ _ _ (.reserved i) :: es =>
    let (s, calls) := (s.setRoute p i none).endCopy f p reason
    let (s, more) := s.freeReserved p reason es
    (s, calls ++ more)
  | .grant w _ _ (.reserved i) :: es => ((s.setGrant p i none).lowerWindow w).freeReserved p reason es
  | _ :: es => s.freeReserved p reason es

/-- The engine returns to IDLE: message and frame cleared, retry count 0, timer stopped, delivery number kept (R97). R82 has the
engine's fields cleared when a delivery ends, but no rule gives its copies of timeout and retry limit a cleared value, and R97,
R100 and R102 do not list them: they keep the last delivery's values (DESIGN CHOICE, unsafe: log 14). -/
def State.idleEngine (s : State) (p : Port) : State :=
  s.onEngine p fun e => { e with state := .idle, current := none, frame := none, retries := 0, timer := none }

/-! ### The response queue (R168) -/

/-- A response joins the tail of a port's queue, which never holds more than 4. -/
def State.enqueue (s : State) (p : Port) (r : Response) : State :=
  s.onCtl p fun c =>
    if c.responses.length < Config.responseQueue then { c with responses := c.responses ++ [r] } else c

/-- Held answers move into the queue, in their order, while it has room (R124). -/
def State.moveHeld (s : State) (p : Port) : State :=
  let room := Config.responseQueue - (s.ctl p).responses.length
  let answers := (s.session p).heldAnswers
  let s := s.onCtl p fun c => { c with responses := c.responses ++ answers.take room }
  s.onSession p fun x => { x with heldAnswers := answers.drop room }

end Sys2Proof.Machine
end

