-- ==== Sys2Proof/Machine/Gate.lean ====
section
/-! DEFINITION. The taking of an inbound frame at a port and the path of a request: overrun, the closing of the stream, the
form gate, the session gate, the privilege gate, the owning block, and the response (08, R147 to R153). -/

namespace Sys2Proof.Machine

/-- A transaction is under way at a port: an outbound frame is fixed (R158). -/
def State.inTransaction (s : State) (p : Port) : Bool := (s.ctl p).outbound.isSome

/-- The inbound frame of a transaction has ended: its assembly is SPENT (R159). Outside a transaction it stays SEARCHING. -/
def State.spend (s : State) (p : Port) : State :=
  s.onCtl p fun c => if c.outbound.isSome then { c with assembly := .spent } else c

/-- A frame that has arrived at a port is handed to `act`. While RSTN is low the port ignores its lines (R156). A
transaction carries one inbound frame, and what follows it is ignored (R159). While STARTING the frame is neither checked
nor handed on (R148). A frame given with no transaction under way is taken as one whose transaction is not spelled out in
the queue (DESIGN CHOICE, unsafe: log 4). -/
def takeFrame (p : Port) (act : State → State) (s : State) : State :=
  if s.rstnLow then s
  else if s.inTransaction p = true ∧ (s.ctl p).assembly = .spent then s
  else if s.controller = .starting then s.spend p
  else followAtn s (act (s.spend p))

/-- A request lost to overrun (R169). -/
def State.loseRequest (s : State) (p : Port) : State :=
  (s.onCtl p fun c => { c with overrun := stepUpTo Config.stop8 c.overrun }).count p Counters.addOverrun

/-- One response queued for a request (R153). -/
def State.respond (s : State) (p : Port) (tag kind : Byte) (status : Status) (result : Result) : State :=
  s.enqueue p { tag := tag, kind := kind, status := status, result := result }

/-- What a block answers: a response now, or one given when the operation ends (R153). -/
inductive Answer where
  | now (status : Status) (result : Result)
  | later
  deriving DecidableEq, Repr

/-- A refusal or other answer without result fields. -/
def Answer.bare (status : Status) : Answer := .now status .none

/-- The session gate (R151): the answer that refuses the request, if one does. A HELLO passes in every state. -/
def sessionGate (kind : RequestKind) (state : SessionState) : Option Status :=
  if kind = .hello then none
  else
    match state with
    | .vacant => some .notAttached
    | .withdrawing => some .busy
    | .attached => none
    | .dormant => none

/-- The privilege gate (R152). -/
def privilegeGate (kind : RequestKind) (supervisor : Bool) : Option Status :=
  if kind.supervision = true ∧ supervisor = false then some .notPermitted else none

/-- The gates after the form gate, in their order (R149). -/
def State.gate (s : State) (p : Port) (kind : RequestKind) : Option Status :=
  match sessionGate kind (s.session p).state with
  | some st => some st
  | none => privilegeGate kind (s.supervisorFlag p)

/-- Gate 1 (R140, R149): every request but STREAM_DATA and STREAM_READ closes the port's stream. -/
def State.closeStream (s : State) (p : Port) (kind : RequestKind) : State :=
  if kind.keepsStream then s else s.setStream p none

/-- A request handed to dispatch (R149). `block` is absent when the request is not well made. -/
def dispatch (kind : RequestKind) (p : Port) (tag : Byte) (block : Option (State → State × Answer)) (s : State) : State :=
  let s := s.closeStream p kind
  match block with
  | none => s.respond p tag kind.code .badRequest .none
  | some act =>
    match s.gate p kind with
    | some st => s.respond p tag kind.code st .none
    | none =>
      match act s with
      | (s', .now st result) => s'.respond p tag kind.code st result
      | (s', .later) => s'

/-- A REQUEST frame taken (R147, R159, R166): counted, then lost to overrun when the queue holds 4 responses, or
dispatched. -/
def takeRequest (kind : RequestKind) (p : Port) (tag : Byte) (block : Option (State → State × Answer)) (s : State) :
    State :=
  takeFrame p
    (fun s =>
      let s := s.count p Counters.addFrameIn
      if (s.ctl p).responses.length < Config.responseQueue then dispatch kind p tag block s else s.loseRequest p)
    s

end Sys2Proof.Machine
end

