-- ==== Sys2Proof/Machine/Routes.lean ====
section
/-! DEFINITION. The route requests: CREATE_ROUTE, DROP_ROUTE, ROUTE_INFO, REVOKE_FAMILY (03). -/

namespace Sys2Proof.Machine

/-- The lowest-numbered FREE family (R44). -/
def State.freeFamily (s : State) : Option (Fin 256) := s.families.first Option.isNone

/-- The lowest-numbered FREE route slot of an agent (R40). -/
def State.freeRoute (s : State) (p : Port) : Option (Fin 63) := (s.col p).routes.first Option.isNone

/-- CREATE_ROUTE (R49): the tests in their order, then the family and the creator's own copy. -/
def createRouteBlock (p : Port) (o : CreateRouteOp) (s : State) : State × Answer :=
  if o.inlet = 0 then (s, .bare .fixed)
  else if (s.inlet p o.inlet).state ≠ .opened then (s, .bare .inletClosed)
  else
    match s.freeFamily with
    | none => (s, .bare .noFamily)
    | some f =>
      match s.freeRoute p with
      | none => (s, .bare .tableFull)
      | some i =>
        let (serial, s) := s.drawSerial
        let s := s.setFamily f (some
          { state := .active, kind := .ordinary, creator := p, generation := (s.session p).generation,
            targetInlet := o.inlet, label := o.label, rights := o.rights, quota := o.quota, notify := o.notify,
            copies := 1 })
        let s := s.setRoute p i (some
          { state := .live, family := f, rights := o.rights, quota := o.quota, outstanding := 0, serial := serial })
        (s, .now .ok (.createRoute i f serial))

/-- CREATE_ROUTE (R49). -/
def execCreateRoute (p : Port) (tag : Byte) (body : Body CreateRouteFields) (s : State) :
    Host.Outcome State Fault Refusal :=
  .next (takeRequest .createRoute p tag ((formOf formCreateRoute body).map (createRouteBlock p)) s)

/-- The copy count of a family, 0 when it is FREE (R61). -/
def State.copies (s : State) (f : Fin 256) : Nat :=
  match s.family f with
  | some x => x.copies
  | none => 0

/-- DROP_ROUTE (R50). -/
def dropRouteBlock (p : Port) (i : Fin 63) (s : State) : State × Answer :=
  match s.route p i with
  | none => (s, .bare .noRoute)
  | some r =>
    if r.state = .reserved then (s, .bare .badState)
    else
      let (s, calls) := (s.setRoute p i none).endCopy r.family p .dropped
      (s.notifyAll calls, .now .ok (.dropRoute r.family (s.copies r.family)))

/-- DROP_ROUTE (R50). -/
def execDropRoute (p : Port) (tag : Byte) (slot : Body Nat) (s : State) : Host.Outcome State Fault Refusal :=
  .next (takeRequest .dropRoute p tag ((formOf routeSlot? slot).map (dropRouteBlock p)) s)

/-- REVOKE_FAMILY (R53): the tests in their order, then the revocation of R52. -/
def revokeFamilyBlock (p : Port) (f : Fin 256) (s : State) : State × Answer :=
  match s.family f with
  | none => (s, .bare .badState)
  | some x =>
    if ¬ (x.creator = p ∧ x.generation = (s.session p).generation) then (s, .bare .notPermitted)
    else if x.state = .revoked then (s, .bare .already)
    else (s.revokeFamily f, .now .ok (.revokeFamily (s.liveRoutes f) x.copies))

/-- REVOKE_FAMILY (R53). -/
def execRevokeFamily (p : Port) (tag : Byte) (family : Body Nat) (s : State) : Host.Outcome State Fault Refusal :=
  .next (takeRequest .revokeFamily p tag ((formOf (fin? 256) family).map (revokeFamilyBlock p)) s)

/-- What ROUTE_INFO reports of a slot and its family (R51). -/
def routeReport (i : Fin 63) (r : RouteCopy) (x : Family) : RouteReport :=
  { slot := i, state := r.state, family := r.family, rights := r.rights, quota := r.quota,
    outstanding := r.outstanding, serial := r.serial, familyState := x.state, kind := x.kind, label := x.label,
    targetPort := x.creator, targetInlet := x.targetInlet }

/-- ROUTE_INFO (R51). A slot that is not FREE names a family that is not FREE (R45); where no run reaches a slot that does
not, it is answered as a FREE one (DESIGN CHOICE, unsafe: log 11). -/
def routeInfoBlock (p : Port) (i : Fin 63) (s : State) : State × Answer :=
  match s.route p i with
  | none => (s, .bare .noRoute)
  | some r =>
    match s.family r.family with
    | some x => (s, .now .ok (.routeInfo (routeReport i r x)))
    | none => (s, .bare .noRoute)

/-- ROUTE_INFO (R51). -/
def execRouteInfo (p : Port) (tag : Byte) (slot : Body Nat) (s : State) : Host.Outcome State Fault Refusal :=
  .next (takeRequest .routeInfo p tag ((formOf routeSlot? slot).map (routeInfoBlock p)) s)

end Sys2Proof.Machine
end

