-- ==== Sys2Proof/Machine/Sending.lean ====
section
/-! DEFINITION. SEND: the eight admission checks in their order (R64 to R72) and the admission (R73 to R79) (04). -/

namespace Sys2Proof.Machine

/-! ### The checks. Each answers the status that refuses the SEND, or `none` when it passes. Check 1 is the session gate. -/

/-- The answer a slot that is not LIVE gives a SEND or an enclosure spec (R66, R69). -/
def CopyState.refusal : CopyState → Option Status
  | .live => none
  | .stale => some .revoked
  | .reserved => some .badState

/-- Where a SEND goes: the sending copy, its family, and the target they lead to (R62, R66). -/
structure Path where
  copy : RouteCopy
  family : Family
  deriving DecidableEq, Repr

/-- Check 2 (R66). A LIVE slot names an ACTIVE family; where no run reaches a LIVE slot naming a FREE family, the answer is
BAD_STATE (DESIGN CHOICE, unsafe: log 11). -/
def State.sendPath (s : State) (p : Port) (i : Fin 63) : Except Status Path :=
  match s.route p i with
  | none => .error .noRoute
  | some r =>
    match r.state.refusal with
    | some st => .error st
    | none =>
      match s.family r.family with
      | some x => .ok { copy := r, family := x }
      | none => .error .badState

/-- Checks 3 to 5: quota, target inlet, room in its queue (R67, R68). -/
def State.checkTarget (s : State) (path : Path) : Option Status :=
  let x := s.inlet path.family.creator path.family.targetInlet
  if ¬ path.copy.outstanding < path.copy.quota then some .quota
  else if x.state ≠ .opened then some .inletClosed
  else if ¬ x.queue.length < x.depth then some .inletFull
  else none

/-- A source slot, as one spec names it (R69, R70): route slots and grant slots of one number are different sources. -/
inductive Source where
  | route (i : Fin 63)
  | grant (i : Fin 8)
  deriving DecidableEq, Repr

def Spec.source : Spec → Source
  | .route i _ _ _ => .route i
  | .grant i _ _ => .grant i

/-- The right a mode needs of a route slot (R69). -/
def RouteRights.allows (r : RouteRights) : EnclosureMode → Bool
  | .copy => r.copy
  | .pass => r.pass
  | .minted => false

/-- Check 6 of one ROUTE spec (R69); `earlier` are the sources the specs before it named. -/
def State.checkRouteSpec (s : State) (p : Port) (sending i : Fin 63) (mode : EnclosureMode)
    (earlier : List Source) : Option Status :=
  match s.route p i with
  | none => some .noRoute
  | some r =>
    match r.state.refusal with
    | some st => some st
    | none =>
      if r.rights.allows mode = false then some .noRight
      else if mode = .pass ∧ i = sending then some .badEnclosure
      else if Source.route i ∈ earlier then some .badEnclosure
      else none

/-- Check 6 of one GRANT spec (R70). -/
def State.checkGrantSpec (s : State) (p : Port) (i : Fin 8) (earlier : List Source) : Option Status :=
  match s.grant p i with
  | none => some .noGrant
  | some g =>
    match g.state.refusal with
    | some st => some st
    | none =>
      if (match s.window g.window with | some w => w.share | none => false) = false then some .noRight
      else if Source.grant i ∈ earlier then some .badEnclosure
      else none

/-- Check 6 of one spec (R69, R70). -/
def State.checkSpec (s : State) (p : Port) (sending : Fin 63) (earlier : List Source) : Spec → Option Status
  | .route i mode _ _ => s.checkRouteSpec p sending i mode earlier
  | .grant i _ _ => s.checkGrantSpec p i earlier

/-- Check 6 (R69, R70): the specs one after another, each whole before the next. -/
def State.checkSpecs (s : State) (p : Port) (sending : Fin 63) : List Source → List Spec → Option Status
  | _, [] => none
  | earlier, x :: xs =>
    match s.checkSpec p sending earlier x with
    | some st => some st
    | none => s.checkSpecs p sending (x.source :: earlier) xs

/-- Check 7 (R71). -/
def State.checkReply (s : State) (p : Port) : Option (Fin 16) → Option Status
  | none => none
  | some i =>
    if i = 0 then some .fixed
    else if (s.inlet p i).state ≠ .opened then some .inletClosed
    else if s.freeFamily.isNone then some .noFamily
    else none

/-- The reserve test (R8): on lanes 1 to 3 the admission must leave the reserve free. -/
def State.reserveAllows (s : State) (lane : Fin 4) (n : Nat) : Bool :=
  decide (lane = 0) ||
    (decide (s.config.reserveCells + cellsFor n ≤ s.store.freeCells)
      && decide (s.config.reserveDescriptors + 1 ≤ s.store.freeDescriptors))

/-- Check 8 (R72, R2, R8). -/
def State.checkStore (s : State) (lane : Fin 4) (n : Nat) : Option Status :=
  if s.hasRoom n && s.reserveAllows lane n then none else some .storeFull

/-! ### Admission -/

/-- Narrowed rights of a route copy (R74). -/
def RouteRights.meet (a b : RouteRights) : RouteRights := { copy := a.copy && b.copy, pass := a.pass && b.pass }

/-- Narrowed rights of a grant copy (R74). -/
def GrantRights.meet (a b : GrantRights) : GrantRights := { read := a.read && b.read, write := a.write && b.write }

/-- The narrowed quota of a route copy (R74): a requested 0 means the source's. -/
def narrowQuota (requested source ceiling : Nat) : Nat :=
  if requested = 0 then min source ceiling else min requested (min source ceiling)

/-- One spec of an admitted SEND (R74, R75, R76): the enclosure made, with the copy count raised for COPY and the source slot
freed for PASS. -/
def State.enclose (s : State) (p : Port) (x : Spec) : State × List Enclosure :=
  match x with
  | .route i mode rights quota =>
    match s.route p i with
    | some r =>
      match s.family r.family with
      | some f =>
        let e : Enclosure := .route r.family mode ((rights.meet r.rights).meet f.rights)
          (narrowQuota quota r.quota f.quota) .inTransit
        (if mode = .pass then s.setRoute p i none else s.raiseFamily r.family, [e])
      | none => (s, [])
    | none => (s, [])
  | .grant i mode rights =>
    match s.grant p i with
    | some g =>
      let e : Enclosure := .grant g.window mode (rights.meet g.rights) .inTransit
      (if mode = .pass then s.setGrant p i none else s.raiseWindow g.window, [e])
    | none => (s, [])

def State.encloseAll (s : State) (p : Port) : List Spec → State × List Enclosure
  | [] => (s, [])
  | x :: xs =>
    let (s, e) := s.enclose p x
    let (s, es) := s.encloseAll p xs
    (s, e ++ es)

/-- The reply route minted (R56, R77): the lowest FREE family, SINGLE, labelled with the SEND's message number. -/
def State.mint (s : State) (p : Port) (number : Nat) : Option (Fin 16) → State × Option (Fin 256)
  | none => (s, none)
  | some i =>
    match s.freeFamily with
    | none => (s, none)
    | some f =>
      (s.setFamily f (some
        { state := .active, kind := .single, creator := p, generation := (s.session p).generation, targetInlet := i,
          label := number, rights := { copy := false, pass := true }, quota := 1,
          notify := { copied := false, passed := false, dropped := false }, copies := 1 }), some f)

/-- The enclosure of a minted reply route, the last of its message (R77). -/
def mintedEnclosure : Option (Fin 256) → List Enclosure
  | some f => [.route f .minted { copy := false, pass := true } 1 .inTransit]
  | none => []

/-- The sending copy charged (R78): its outstanding count rises; a SINGLE one is freed with its
family, with no notice (R46). -/
def State.charge (s : State) (p : Port) (i : Fin 63) (path : Path) : State :=
  match path.family.kind with
  | .ordinary =>
    match s.route p i with
    | some r => s.setRoute p i (some { r with outstanding := r.outstanding + 1 })
    | none => s
  | .single => ((s.setRoute p i none).lowerFamily path.copy.family).1

/-- The admission (R73 to R79), in the order of the rules: number, enclosures, minted family, charge, and the append last. -/
def State.admission (s : State) (p : Port) (o : SendOp) (path : Path) : State × Answer :=
  let (number, s) := s.drawMessage
  let (s, es) := s.encloseAll p o.specs
  let (s, minted) := s.mint p number o.reply
  let s := s.charge p o.slot path
  let m : NewMessage :=
    { messageNumber := number, sender := .agent p (s.session p).generation o.slot path.copy.serial,
      targetPort := path.family.creator, targetInlet := path.family.targetInlet, ret := o.ret,
      label := path.family.label, enclosures := es ++ mintedEnclosure minted, body := o.body }
  (s.place m, .now .ok (.send number minted))

/-- A refused SEND, with the one counter its refusal raises (R64, R30, R9). -/
def State.refuseSend (s : State) (path : Path) (st : Status) : State × Answer :=
  (match st with
    | .inletFull => s.onInlet path.family.creator path.family.targetInlet fun x =>
        { x with refusedFull := stepUpTo Config.stop16 x.refusedFull }
    | .storeFull => s.onStore fun x => { x with refused := stepUpTo Config.stop16 x.refused }
    | _ => s,
    .bare st)

/-- The first of checks 3 to 8 that fails (R64). -/
def State.checkSend (s : State) (p : Port) (o : SendOp) (path : Path) : Option Status :=
  (s.checkTarget path) <|> (s.checkSpecs p o.slot [] o.specs) <|> (s.checkReply p o.reply)
    <|> s.checkStore (s.inlet path.family.creator path.family.targetInlet).lane o.body.length

/-- SEND (R64): the first check that fails gives the answer; a SEND that passes all is admitted. -/
def sendBlock (p : Port) (o : SendOp) (s : State) : State × Answer :=
  match s.sendPath p o.slot with
  | .error st => (s, .bare st)
  | .ok path =>
    match s.checkSend p o path with
    | some st => s.refuseSend path st
    | none => s.admission p o path

/-- SEND (R62, R63, R64). -/
def execSend (p : Port) (tag : Byte) (body : Body SendFields) (s : State) : Host.Outcome State Fault Refusal :=
  .next (takeRequest .send p tag ((formOf formSend body).map (sendBlock p)) s)

end Sys2Proof.Machine
end

