-- ==== Sys2Proof/Machine/Windows.lean ====
section
/-! DEFINITION. The window, grant and stream requests: CREATE_WINDOW, CLOSE_WINDOW, DROP_GRANT, STREAM_OPEN, STREAM_DATA,
STREAM_READ (07). -/

namespace Sys2Proof.Machine

/-- The lowest-numbered FREE window (R129). -/
def State.freeWindow (s : State) : Option (Fin 32) := s.windows.first Option.isNone

/-- The lowest-numbered FREE grant slot of an agent (R132). -/
def State.freeGrant (s : State) (p : Port) : Option (Fin 8) := (s.col p).grants.first Option.isNone

/-- Base and limit both lie within a port's partition (R127, R133). -/
def PortSettings.holds (x : PortSettings) (base limit : Nat) : Bool :=
  decide (x.partitionBase ≤ base) && decide (base < x.partitionBase + x.partitionLength)
    && decide (x.partitionBase ≤ limit) && decide (limit < x.partitionBase + x.partitionLength)

/-- CREATE_WINDOW (R133): the tests in their order, then the window and the requester's grant. -/
def createWindowBlock (p : Port) (o : CreateWindowOp) (s : State) : State × Answer :=
  if (s.settings p).holds o.base.val o.limit.val = false then (s, .bare .outOfPartition)
  else
    match s.freeWindow with
    | none => (s, .bare .noWindow)
    | some w =>
      match s.freeGrant p with
      | none => (s, .bare .tableFull)
      | some i =>
        let s := s.setWindow w (some
          { state := .opened, owner := p, generation := (s.session p).generation, base := o.base, limit := o.limit,
            share := o.share, grants := 1 })
        let s := s.setGrant p i (some { state := .live, window := w, rights := { read := true, write := true } })
        (s, .now .ok (.createWindow w i))

/-- CREATE_WINDOW (R133). -/
def execCreateWindow (p : Port) (tag : Byte) (body : Body CreateWindowFields) (s : State) :
    Host.Outcome State Fault Refusal :=
  .next (takeRequest .createWindow p tag ((formOf formCreateWindow body).map (createWindowBlock p)) s)

/-- CLOSE_WINDOW (R134): the tests in their order, then the revocation of R135. A slot that is not FREE names a window that
is not FREE (R130); where no run reaches one that does not, the answer is NO_GRANT (DESIGN CHOICE, unsafe: log 11). -/
def closeWindowBlock (p : Port) (i : Fin 8) (s : State) : State × Answer :=
  match s.grant p i with
  | none => (s, .bare .noGrant)
  | some g =>
    if g.state = .reserved then (s, .bare .badState)
    else
      match s.window g.window with
      | none => (s, .bare .noGrant)
      | some w =>
        if ¬ (w.owner = p ∧ w.generation = (s.session p).generation) then (s, .bare .notPermitted)
        else if w.state = .revoked then (s, .bare .already)
        else
          (s.revokeWindow g.window,
            .now .ok (.closeWindow g.window (s.liveGrants g.window) (s.openStreams g.window) w.grants))

/-- CLOSE_WINDOW (R134). -/
def execCloseWindow (p : Port) (tag : Byte) (slot : Body Nat) (s : State) : Host.Outcome State Fault Refusal :=
  .next (takeRequest .closeWindow p tag ((formOf (fin? 8) slot).map (closeWindowBlock p)) s)

/-- The grant count of a window, 0 when it is FREE (R146). -/
def State.grants (s : State) (w : Fin 32) : Nat :=
  match s.window w with
  | some x => x.grants
  | none => 0

/-- DROP_GRANT (R136). -/
def dropGrantBlock (p : Port) (i : Fin 8) (s : State) : State × Answer :=
  match s.grant p i with
  | none => (s, .bare .noGrant)
  | some g =>
    if g.state = .reserved then (s, .bare .badState)
    else
      let s := (s.setGrant p i none).lowerWindow g.window
      (s, .now .ok (.dropGrant g.window (s.grants g.window)))

/-- DROP_GRANT (R136). -/
def execDropGrant (p : Port) (tag : Byte) (slot : Body Nat) (s : State) : Host.Outcome State Fault Refusal :=
  .next (takeRequest .dropGrant p tag ((formOf (fin? 8) slot).map (dropGrantBlock p)) s)

/-- A grant's rights hold the one a direction needs (R141). -/
def GrantRights.allows (r : GrantRights) : Direction → Bool
  | .write => r.write
  | .read => r.read

/-- The state a stream opens in (R141). -/
def Direction.stream : Direction → StreamState
  | .write => .write
  | .read => .read

/-- A stream opened on a window (R141): the cursor at the base for ASCENDING, at the limit for DESCENDING. -/
def openStream (n : Fin 32) (w : Window) (o : StreamOpenOp) : Stream :=
  { state := o.direction.stream, window := n, base := w.base, limit := w.limit, order := o.order,
    cursor := match o.order with
      | .ascending => (w.base.val : Int)
      | .descending => (w.limit.val : Int) }

/-- STREAM_OPEN (R141): the tests in their order. A LIVE slot names an OPEN window; where no run reaches one that does not,
the answer is NO_GRANT (DESIGN CHOICE, unsafe: log 11). -/
def streamOpenBlock (p : Port) (o : StreamOpenOp) (s : State) : State × Answer :=
  match s.grant p o.slot with
  | none => (s, .bare .noGrant)
  | some g =>
    match g.state with
    | .reserved => (s, .bare .badState)
    | .stale => (s, .bare .revoked)
    | .live =>
      if g.rights.allows o.direction = false then (s, .bare .noRight)
      else
        match s.window g.window with
        | none => (s, .bare .noGrant)
        | some w =>
          let x := openStream g.window w o
          (s.setStream p (some x), .now .ok (.streamOpen g.window w.base w.limit g.rights x.cursor))

/-- STREAM_OPEN (R141); the old stream has been closed by gate 1. -/
def execStreamOpen (p : Port) (tag : Byte) (body : Body StreamOpenFields) (s : State) :
    Host.Outcome State Fault Refusal :=
  .next (takeRequest .streamOpen p tag ((formOf formStreamOpen body).map (streamOpenBlock p)) s)

/-- The cursor moved by one byte written or discarded: it stops at 262144 going up and at -1 going down (R142). -/
def Stream.advance (x : Stream) : Stream :=
  match x.order with
  | .ascending => { x with cursor := if x.cursor < 262144 then x.cursor + 1 else x.cursor }
  | .descending => { x with cursor := if -1 < x.cursor then x.cursor - 1 else x.cursor }

/-- The cursor lies within the window, base through limit (R142). -/
def Stream.within (x : Stream) : Bool := decide ((x.base.val : Int) ≤ x.cursor) && decide (x.cursor ≤ (x.limit.val : Int))

/-- The bytes of one STREAM_DATA frame taken in order (R142): memory, the stream after, and the bytes written. -/
def streamWrite : List Byte → List Host.Cell → Stream → List Host.Cell × Stream × Nat
  | [], m, x => (m, x, 0)
  | b :: bs, m, x =>
    if x.within then
      let (m, x, n) := streamWrite bs (Memory.write m x.cursor.toNat b) x.advance
      (m, x, n + 1)
    else streamWrite bs m x.advance

/-- STREAM_DATA by the stream's state (R142). -/
def streamDataBlock (p : Port) (data : List Byte) (s : State) : State × Answer :=
  match s.stream p with
  | none => (s, .bare .badState)
  | some x =>
    match x.state with
    | .read => (s.setStream p none, .bare .badState)
    | .broken => (s.setStream p none, .bare .windowRevoked)
    | .write =>
      let (m, x, n) := streamWrite data s.bulk x
      (({ s with bulk := m } : State).setStream p (some x), .now .ok (.streamData n (data.length - n) x.cursor))

/-- STREAM_DATA (R142). -/
def execStreamData (p : Port) (tag : Byte) (data : List Byte) (s : State) : Host.Outcome State Fault Refusal :=
  .next (takeRequest .streamData p tag ((formStreamData data).map (streamDataBlock p)) s)

/-- The bytes between the cursor and the end of the window, in the stream's order (R143). -/
def Stream.remaining (x : Stream) : Nat :=
  if x.within then
    match x.order with
    | .ascending => ((x.limit.val : Int) - x.cursor + 1).toNat
    | .descending => (x.cursor - (x.base.val : Int) + 1).toNat
  else 0

/-- `n` bytes read at the cursor and onward in the stream's order (R143). -/
def streamFetch (m : List Host.Cell) : (n : Nat) → Stream → List Byte × Stream
  | 0, x => ([], x)
  | n + 1, x =>
    let (bs, y) := streamFetch m n x.advance
    (Memory.read m x.cursor.toNat :: bs, y)

/-- STREAM_READ by the stream's state (R143). -/
def streamReadBlock (p : Port) (count : Nat) (s : State) : State × Answer :=
  match s.stream p with
  | none => (s, .bare .badState)
  | some x =>
    match x.state with
    | .write => (s.setStream p none, .bare .badState)
    | .broken => (s.setStream p none, .bare .windowRevoked)
    | .read =>
      let (bs, x) := streamFetch s.bulk (min count x.remaining) x
      (s.setStream p (some x), .now .ok (.streamRead bs x.cursor))

/-- STREAM_READ (R143). -/
def execStreamRead (p : Port) (tag : Byte) (count : Body Nat) (s : State) : Host.Outcome State Fault Refusal :=
  .next (takeRequest .streamRead p tag ((formOf formStreamRead count).map (streamReadBlock p)) s)

end Sys2Proof.Machine
end

