-- ==== Sys2Proof/Machine/Delivery.lean ====
section
/-! DEFINITION. The delivery engine: the choice of a message and its first offer (R84 to R90), acknowledgement (R93 to R97),
retry and abandonment (R94, R99, R100), the timer's expiry (R92) (05). -/

namespace Sys2Proof.Machine

/-! ### Choosing a message -/

/-- An inlet is a candidate (R84, R34): OPEN or DRAINING, a message in its queue, and its lane PUSH or credit left. -/
def State.candidate (s : State) (p : Port) (i : Fin 16) : Bool :=
  let x := s.inlet p i
  decide (x.state ≠ .closed) && !x.queue.isEmpty
    && (decide ((s.lane p x.lane).mode = .push) || decide (0 < x.credit))

/-- The inlet numbers in the order a lane takes them (R85): from the one after the last served, wrapping from 15 to 0, the
last served itself last. -/
def rotation (last : Fin 16) : List (Fin 16) := (List.finRange 16).map fun k => last + 1 + k

/-- The inlet a lane would serve (R85 step 2). -/
def State.laneChoice (s : State) (p : Port) (l : Fin 4) : Option (Fin 16) :=
  (rotation (s.lane p l).lastServed).find? fun i => s.candidate p i && decide ((s.inlet p i).lane = l)

/-- The lane and inlet chosen (R85 steps 1 and 2): the lowest-numbered lane with a candidate. -/
def State.choice (s : State) (p : Port) : Option (Fin 4 × Fin 16) :=
  (List.finRange 4).findSome? fun l => (s.laneChoice p l).map fun i => (l, i)

/-! ### Settling enclosures at first offer -/

/-- A route enclosure settled (R87). The family is not FREE, since the enclosure holds a copy; where no run reaches a FREE
one the enclosure is dropped as REVOKED (DESIGN CHOICE, unsafe: log 11). -/
def State.settleRoute (s : State) (p : Port) (f : Fin 256) (rights : RouteRights) (quota : Nat) :
    Settlement (Fin 63) × State × List NoticeCall :=
  match (s.family f).map Family.state with
  | some .active =>
    match s.freeRoute p with
    | some i =>
      let (serial, s) := s.drawSerial
      (.reserved i, s.setRoute p i (some
        { state := .reserved, family := f, rights := rights, quota := quota, outstanding := 0, serial := serial }), [])
    | none =>
      let (s, calls) := s.endCopy f p .noSlot
      (.dropped .noSlot, s, calls)
  | some .revoked | none =>
    let (s, calls) := s.lowerFamily f
    (.dropped .revoked, s, calls)

/-- A grant enclosure settled (R88); a FREE window, which no run reaches here, drops it as REVOKED (log 11). -/
def State.settleGrant (s : State) (p : Port) (w : Fin 32) (rights : GrantRights) : Settlement (Fin 8) × State :=
  match (s.window w).map Window.state with
  | some .opened =>
    match s.freeGrant p with
    | some i => (.reserved i, s.setGrant p i (some { state := .reserved, window := w, rights := rights }))
    | none => (.dropped .noSlot, s.lowerWindow w)
  | some .revoked | none => (.dropped .revoked, s.lowerWindow w)

/-- Every enclosure of a message settled in list order (R87, R88), with the notices called for (R89). An enclosure is
IN_TRANSIT at the first offer of its message (R5), and one that is not is left as it stands. -/
def State.settleAll (s : State) (p : Port) : List Enclosure → List Enclosure × State × List NoticeCall
  | [] => ([], s, [])
  | .route f mode rights quota .inTransit :: es =>
    let (st, s, calls) := s.settleRoute p f rights quota
    let (done, s, more) := s.settleAll p es
    (.route f mode rights quota st :: done, s, calls ++ more)
  | .grant w mode rights .inTransit :: es =>
    let (st, s) := s.settleGrant p w rights
    let (done, s, more) := s.settleAll p es
    (.grant w mode rights st :: done, s, more)
  | e :: es =>
    let (done, s, more) := s.settleAll p es
    (e :: done, s, more)

/-- The DELIVER frame of a message (R90). -/
def Descriptor.deliverFrame (d : Descriptor) (number : Nat) (inlet : Fin 16) : DeliverFrame :=
  { number := number, inlet := inlet, sender := d.sender, label := d.label, messageNumber := d.messageNumber,
    ret := d.ret, entries := d.enclosures, body := d.body }

/-- The lane has served the inlet, which pays one credit on a PULL lane (R85 steps 3 and 4). -/
def State.serveLane (s : State) (p : Port) (l : Fin 4) (i : Fin 16) : State :=
  let s := s.onLane p l fun x => { x with lastServed := i }
  if (s.lane p l).mode = .pull then s.onInlet p i fun x => { x with credit := x.credit - 1 } else s

/-- The message at the head of an inlet becomes the engine's, its enclosures settled, its frame built (R85 steps 5 to 9,
R89, R90). -/
def State.present (s : State) (p : Port) (i : Fin 16) (d : Descriptor) : State :=
  let number := nextByteNumber (s.engine p).number
  let settings := s.settings p
  let (es, s, calls) := s.settleAll p d.enclosures
  let d' : Descriptor := { d with lifecycle := .inDelivery, enclosures := es }
  let s := s.onHead p i fun _ => d'
  let s := s.onEngine p fun _ =>
    { state := .presented, current := some i, number := number, retries := 0, timeout := settings.timeout,
      retryLimit := settings.retryLimit, frame := some (d'.deliverFrame number i), timer := none }
  s.notifyAll calls

/-- The first offer of a message (R85 steps 3 to 9). -/
def State.offer (s : State) (p : Port) (l : Fin 4) (i : Fin 16) (d : Descriptor) : State :=
  (s.serveLane p l i).present p i d

/-- The choice event (R85): taken when the engine is IDLE, the session ATTACHED and a candidate stands. -/
def State.choose (s : State) (p : Port) : State :=
  if (s.engine p).state = .idle ∧ (s.session p).state = .attached then
    match s.choice p with
    | some (l, i) =>
      match (s.inlet p i).queue with
      | d :: _ => s.offer p l i d
      | [] => s
    | none => s
  else s

/-- DELIVERY_CHOICE (R85); taken while its conditions do not hold it changes nothing (log 5). -/
def execDeliveryChoice (p : Port) (s : State) : Host.Outcome State Fault Refusal :=
  .next (event s fun s => s.choose p)

/-! ### Acknowledgement -/

/-- A reserved route slot installed (R42, R95), with the notice called for (R96). -/
def State.installRoute (s : State) (p : Port) (sender : Sender) (f : Fin 256) (mode : EnclosureMode) (i : Fin 63) :
    State × List NoticeCall :=
  match s.family f with
  | some x =>
    if x.state = .active then
      let calls : List NoticeCall :=
        match mode, sender with
        | .copy, _ =>
          if x.notify.copied then [{ port := x.creator, generation := x.generation, notice := .routeCopied f p }]
          else []
        | .pass, .agent q _ _ _ =>
          if x.notify.passed then [{ port := x.creator, generation := x.generation, notice := .routePassed f q p }]
          else []
        | .pass, .controller => []
        | .minted, _ => []
      (s.setRoute p i ((s.route p i).map fun r => { r with state := .live }), calls)
    else (s.setRoute p i ((s.route p i).map fun r => { r with state := .stale }), [])
  | none => (s.setRoute p i ((s.route p i).map fun r => { r with state := .stale }), [])

/-- A reserved grant slot installed (R95). -/
def State.installGrant (s : State) (p : Port) (w : Fin 32) (i : Fin 8) : State :=
  let st : CopyState :=
    match (s.window w).map Window.state with
    | some .opened => .live
    | some .revoked => .stale
    | none => .stale
  s.setGrant p i ((s.grant p i).map fun g => { g with state := st })

/-- Every reserved slot of a delivery installed, in list order (R95), with the notices called for (R96). -/
def State.installAll (s : State) (p : Port) (sender : Sender) : List Enclosure → State × List NoticeCall
  | [] => (s, [])
  | .route f mode _ _ (.reserved i) :: es =>
    let (s, calls) := s.installRoute p sender f mode i
    let (s, more) := s.installAll p sender es
    (s, calls ++ more)
  | .grant w _ _ (.reserved i) :: es => (s.installGrant p w i).installAll p sender es
  | _ :: es => s.installAll p sender es

/-- A delivery completed by its matching ACK (R95 to R97): installation, release (R11), notices, IDLE. -/
def State.complete (s : State) (p : Port) (i : Fin 16) (d : Descriptor) : State :=
  let (s, calls) := s.installAll p d.sender d.enclosures
  let s := (s.takeOut p i d).decrement d.sender
  let s := s.notifyAll calls
  ((s.idleEngine p).count p Counters.addCompleted).settleDrain p i

/-- A delivery abandoned (R99, R100): reserved slots freed, the message destroyed with its notices, IDLE. -/
def State.abandon (s : State) (p : Port) (i : Fin 16) (d : Descriptor) : State :=
  let (s, calls) := s.freeReserved p .abandoned d.enclosures
  let s := s.destroy p i d .abandonment calls
  ((s.idleEngine p).count p Counters.addAbandoned).settleDrain p i

/-- A retry (R94): the same frame PRESENTED again, or, above the limit, abandonment. -/
def State.retry (s : State) (p : Port) : State :=
  if (s.engine p).retries + 1 ≤ (s.engine p).retryLimit then
    s.onEngine p fun e => { e with state := .presented, retries := e.retries + 1, timer := none }
  else
    match s.current p with
    | some (i, d) => s.abandon p i d
    | none => s.idleEngine p

/-- A stray acknowledgement (R93). -/
def State.stray (s : State) (p : Port) : State := s.count p Counters.addStray

/-- An ACK handed to the engine (R93, R95); ignored while WITHDRAWING (R121). -/
def State.takeAck (s : State) (p : Port) (number : Byte) : State :=
  if (s.session p).state = .withdrawing then s
  else if (s.engine p).state ≠ .idle ∧ (s.engine p).number = number.toNat then
    match s.current p with
    | some (i, d) => s.complete p i d
    | none => s.idleEngine p
  else s.stray p

/-- A NAK handed to the engine (R93, R94); ignored while WITHDRAWING (R121). -/
def State.takeNak (s : State) (p : Port) (number : Byte) : State :=
  if (s.session p).state = .withdrawing then s
  else if (s.engine p).state = .sent ∧ (s.engine p).number = number.toNat then s.retry p
  else s.stray p

/-- ACK (R93, R95 to R97); counted among the frames in (R166). -/
def execAck (p : Port) (number : Byte) (s : State) : Host.Outcome State Fault Refusal :=
  .next (takeFrame p (fun s => (s.count p Counters.addFrameIn).takeAck p number) s)

/-- NAK (R93, R94); counted among the frames in (R166). -/
def execNak (p : Port) (number : Byte) (s : State) : Host.Outcome State Fault Refusal :=
  .next (takeFrame p (fun s => (s.count p Counters.addFrameIn).takeNak p number) s)

/-- TIMER_EXPIRY (R92): taken as a retry in SENT, where the timer runs; a stopped timer does not expire. -/
def execTimerExpiry (p : Port) (s : State) : Host.Outcome State Fault Refusal :=
  .next (event s fun s => if (s.engine p).state = .sent then s.retry p else s)

end Sys2Proof.Machine
end

