-- ==== Sys2Proof/Machine/Inlets.lean ====
section
/-! DEFINITION. The inlet and lane requests: OPEN_INLET, CLOSE_INLET, SET_INLET, SET_LANE, RECEIVE, INLET_STATUS (02). -/

namespace Sys2Proof.Machine

/-- OPEN_INLET (R22); a depth of 0 asks for the default depth limit of 8. -/
def openInletBlock (p : Port) (o : OpenInletOp) (s : State) : State × Answer :=
  if o.inlet = 0 then (s, .bare .fixed)
  else
    match (s.inlet p o.inlet).state with
    | .opened => (s, .bare .badState)
    | .draining => (s, .bare .busy)
    | .closed =>
      (s.onInlet p o.inlet fun _ =>
        { state := .opened, lane := o.lane, depth := if o.depth = 0 then Config.depthDefault else o.depth,
          wake := o.wake, queue := [], credit := 0, refusedFull := 0 },
        .bare .ok)

/-- OPEN_INLET (R22). -/
def execOpenInlet (p : Port) (tag : Byte) (body : Body OpenInletFields) (s : State) :
    Host.Outcome State Fault Refusal :=
  .next (takeRequest .openInlet p tag ((formOf formOpenInlet body).map (openInletBlock p)) s)

/-- The QUEUED messages of an inlet destroyed one after another, oldest first (R27); the number destroyed. `fuel` is the
queue's length. -/
def State.discardQueued (p : Port) (i : Fin 16) : (fuel : Nat) → State → State × Nat
  | 0, s => (s, 0)
  | k + 1, s =>
    match (s.inlet p i).queue.find? fun d => decide (d.lifecycle = .queued) with
    | some d =>
      let (s, n) := State.discardQueued p i k (s.destroy p i d .discard [])
      (s, n + 1)
    | none => (s, 0)

/-- The inlet after a close: CLOSED with pull credit 0 when its queue is empty, DRAINING otherwise (R26, R27). -/
def State.shutInlet (s : State) (p : Port) (i : Fin 16) : State :=
  s.onInlet p i fun x =>
    if x.queue.isEmpty then { x with state := .closed, credit := 0 } else { x with state := .draining }

/-- The families a close revokes (R25, R54): the ACTIVE ones bound to the inlet, when it is OPEN. -/
def State.boundFamilies (s : State) (p : Port) (i : Fin 16) : List (Fin 256) :=
  match (s.inlet p i).state with
  | .opened => s.activeFamilies (boundTo p (s.session p).generation i)
  | .closed => []
  | .draining => []

/-- A close carried out (R25 to R27): families revoked first, then the queue drained or discarded. -/
def State.closeInlet (s : State) (p : Port) (o : CloseInletOp) : State × Answer :=
  let fs := s.boundFamilies p o.inlet
  let s := s.revokeFamilies fs
  let (s, destroyed) :=
    match o.mode with
    | .drain => (s, 0)
    | .discard => State.discardQueued p o.inlet (s.inlet p o.inlet).queue.length s
  let s := s.shutInlet p o.inlet
  (s, .now .ok (.closeInlet (s.inlet p o.inlet).state destroyed fs.length))

/-- CLOSE_INLET (R25): the answers of its table. -/
def closeInletBlock (p : Port) (o : CloseInletOp) (s : State) : State × Answer :=
  if o.inlet = 0 then (s, .bare .fixed)
  else
    match (s.inlet p o.inlet).state, o.mode with
    | .closed, _ => (s, .bare .already)
    | .draining, .drain => (s, .bare .already)
    | .draining, .discard => s.closeInlet p o
    | .opened, _ => s.closeInlet p o

/-- CLOSE_INLET (R25). -/
def execCloseInlet (p : Port) (tag : Byte) (body : Body CloseInletFields) (s : State) :
    Host.Outcome State Fault Refusal :=
  .next (takeRequest .closeInlet p tag ((formOf formCloseInlet body).map (closeInletBlock p)) s)

/-- SET_INLET (R23): the tests in their order, then the three values together. -/
def setInletBlock (p : Port) (o : SetInletOp) (s : State) : State × Answer :=
  let x := s.inlet p o.inlet
  if o.inlet = 0 ∧ o.lane ≠ 0 then (s, .bare .fixed)
  else if x.state = .closed then (s, .bare .inletClosed)
  else if o.depth < x.queue.length then (s, .bare .badState)
  else if o.depth = x.depth ∧ o.wake = x.wake ∧ o.lane = x.lane then (s, .bare .already)
  else (s.onInlet p o.inlet fun x => { x with depth := o.depth, wake := o.wake, lane := o.lane }, .bare .ok)

/-- SET_INLET (R23). -/
def execSetInlet (p : Port) (tag : Byte) (body : Body SetInletFields) (s : State) :
    Host.Outcome State Fault Refusal :=
  .next (takeRequest .setInlet p tag ((formOf formSetInlet body).map (setInletBlock p)) s)

/-- SET_LANE (R33). -/
def setLaneBlock (p : Port) (o : SetLaneOp) (s : State) : State × Answer :=
  if o.lane = 0 then (s, .bare .fixed)
  else if (s.lane p o.lane).mode = o.mode then (s, .bare .already)
  else (s.onLane p o.lane fun x => { x with mode := o.mode }, .bare .ok)

/-- SET_LANE (R33). -/
def execSetLane (p : Port) (tag : Byte) (body : Body SetLaneFields) (s : State) : Host.Outcome State Fault Refusal :=
  .next (takeRequest .setLane p tag ((formOf formSetLane body).map (setLaneBlock p)) s)

/-- A queue holds a message whose lifecycle is QUEUED (R35). -/
def Inlet.hasQueued (x : Inlet) : Bool := x.queue.any fun d => decide (d.lifecycle = .queued)

/-- RECEIVE (R35): the credit raised and cut at 16; QUEUED or EMPTY. -/
def receiveBlock (p : Port) (o : ReceiveOp) (s : State) : State × Answer :=
  let x := s.inlet p o.inlet
  if x.state = .closed then (s, .bare .inletClosed)
  else if (s.lane p x.lane).mode = .push then (s, .bare .badState)
  else
    let credit := min Config.creditMax (x.credit + o.count)
    (s.onInlet p o.inlet fun x => { x with credit := credit },
      .now (if x.hasQueued then .queued else .empty) (.receive credit))

/-- RECEIVE (R35). -/
def execReceive (p : Port) (tag : Byte) (body : Body ReceiveFields) (s : State) : Host.Outcome State Fault Refusal :=
  .next (takeRequest .receive p tag ((formOf formReceive body).map (receiveBlock p)) s)

/-- What INLET_STATUS reports (R31). -/
def State.inletReport (s : State) (p : Port) (i : Fin 16) : InletReport :=
  let x := s.inlet p i
  { inlet := i, state := x.state, lane := x.lane, mode := (s.lane p x.lane).mode, depth := x.depth, wake := x.wake,
    length := x.queue.length,
    headInDelivery := match x.queue with | d :: _ => decide (d.lifecycle = .inDelivery) | [] => false,
    headNumber := match x.queue with | d :: _ => d.messageNumber | [] => 0,
    credit := x.credit, refusedFull := x.refusedFull }

/-- INLET_STATUS (R31). -/
def inletStatusBlock (p : Port) (i : Fin 16) (s : State) : State × Answer :=
  (s, .now .ok (.inletStatus (s.inletReport p i)))

/-- INLET_STATUS (R31). -/
def execInletStatus (p : Port) (tag : Byte) (inlet : Body Nat) (s : State) : Host.Outcome State Fault Refusal :=
  .next (takeRequest .inletStatus p tag ((formOf (fin? 16) inlet).map (inletStatusBlock p)) s)

end Sys2Proof.Machine
end

