-- ==== Sys2Proof/Machine/Withdrawal.lean ====
section
/-! DEFINITION. The beginning of a session (R109, R21), the start of a withdrawal (R118), the three owners' steps of the sweep
(R60, R145, R36) and its completion (R123). -/

namespace Sys2Proof.Machine

/-- A session begins on a port (R109 steps 1 to 5, R21): a new generation, inlet 0 OPEN, every lane PUSH. -/
def State.beginSession (s : State) (p : Port) (agentClass : Byte) (name : List Byte) : State :=
  let s := s.onSession p fun x =>
    { x with state := .attached, generation := nextByteNumber x.generation, agentClass := agentClass, name := name,
             wakePending := false, lost := 0 }
  let s := s.onInlet p 0 fun _ => { Inlet.freshNotice with state := .opened }
  s.onCol p fun c => { c with lanes := freshLanes }

/-- The result fields of a HELLO's answer (R109). -/
def State.helloResult (s : State) (p : Port) : Result :=
  .hello p (s.session p).generation (s.supervisorFlag p)

/-- The delivery engine's abort (R102): reserved slots freed, the message QUEUED again at the head, the engine IDLE. -/
def State.abortEngine (s : State) (p : Port) : State :=
  if (s.engine p).state = .idle then s
  else
    match s.current p with
    | some (i, d) =>
      let (s, calls) := s.freeReserved p .withdrawn d.enclosures
      let s := s.notifyAll calls
      (s.onHead p i fun d => { d with lifecycle := .queued }).idleEngine p
    | none => s.idleEngine p

/-- An outbound RESPONSE frame whose entry is discarded completes on the lines and removes nothing (R119, R171). -/
def Outbound.dropResponse (o : Outbound) : Outbound :=
  match o.carried with
  | .response _ => { o with carried := .discarded }
  | _ => o

/-- The port's share of withdrawal (R119): the queue emptied, the overrun count 0, the stream closed. -/
def State.portShare (s : State) (p : Port) : State :=
  let s := s.onCtl p fun c =>
    { c with responses := [], overrun := 0, outbound := c.outbound.map Outbound.dropResponse }
  s.setStream p none

/-- The session record at the start of a withdrawal (R118 step 1); answers still held are discarded (R124). -/
def Session.withdraw (x : Session) (heldHello : Option HeldHello) (heldBye : Option Byte) : Session :=
  { x with state := .withdrawing, heldHello := heldHello, heldBye := heldBye, heldAnswers := [], wakePending := false,
           lost := 0, sweep := some { routeTable := true, grantTable := true, inletTable := true } }

/-- The start of a withdrawal, in one event (R118): the session, its families (R59), its windows (R145), the engine (R102),
the port (R119), in that order. -/
def State.startWithdrawal (s : State) (p : Port) (heldHello : Option HeldHello) (heldBye : Option Byte) : State :=
  let generation := (s.session p).generation
  let s := s.onSession p fun x => x.withdraw heldHello heldBye
  let s := s.revokeFamilies (s.activeFamilies (createdBy p generation))
  let s := s.revokeWindows (s.openWindows p generation)
  (s.abortEngine p).portShare p

/-! ### The owners' steps -/

/-- The slot states a sweep frees: LIVE and STALE (R60, R145). -/
def CopyState.swept : CopyState → Bool
  | .live => true
  | .stale => true
  | .reserved => false

/-- One route slot of a withdrawing agent swept (R60). -/
def State.sweepRoute (p : Port) (s : State) (i : Fin 63) : State :=
  match s.route p i with
  | some r =>
    if r.state.swept then
      let (s, calls) := (s.setRoute p i none).endCopy r.family p .withdrawn
      s.notifyAll calls
    else s
  | none => s

/-- One grant slot of a withdrawing agent swept (R145). -/
def State.sweepGrant (p : Port) (s : State) (i : Fin 8) : State :=
  match s.grant p i with
  | some g => if g.state.swept then (s.setGrant p i none).lowerWindow g.window else s
  | none => s

/-- Every message of one inlet destroyed, oldest first (R36 step 1); `fuel` is the queue's length. -/
def State.sweepQueue (p : Port) (i : Fin 16) : (fuel : Nat) → State → State
  | 0, s => s
  | k + 1, s =>
    match (s.inlet p i).queue with
    | d :: _ => State.sweepQueue p i k (s.destroy p i d .withdrawal [])
    | [] => s

def State.sweepInlet (p : Port) (s : State) (i : Fin 16) : State :=
  State.sweepQueue p i (s.inlet p i).queue.length s

/-- The progress of a sweep with one owner's report taken (R120). -/
def State.report (s : State) (p : Port) (f : Sweep → Sweep) : State :=
  s.onSession p fun x => { x with sweep := x.sweep.map f }

/-- The route table's step (R60): slots 1 to 63 in turn. -/
def State.sweepRoutes (s : State) (p : Port) : State :=
  ((List.finRange 63).foldl (State.sweepRoute p) s).report p fun w => { w with routeTable := false }

/-- The grant table's step (R145): slots 0 to 7 in turn. -/
def State.sweepGrants (s : State) (p : Port) : State :=
  ((List.finRange 8).foldl (State.sweepGrant p) s).report p fun w => { w with grantTable := false }

/-- The inlet table's step (R36): every message of inlets 0 to 15 in turn, then every inlet and lane record as R37. -/
def State.sweepInlets (s : State) (p : Port) : State :=
  let s := (List.finRange 16).foldl (State.sweepInlet p) s
  (s.onCol p fun c => { c with inlets := freshInlets, lanes := freshLanes }).report p
    fun w => { w with inletTable := false }

/-- An owner's step is due: the port is WITHDRAWING and this owner has yet to report (R120). -/
def State.due (s : State) (p : Port) (owner : Sweep → Bool) : Bool :=
  decide ((s.session p).state = .withdrawing) &&
    match (s.session p).sweep with
    | some w => owner w
    | none => false

/-- All three owners have reported (R123). -/
def State.swept (s : State) (p : Port) : Bool :=
  s.due p fun w => !w.routeTable && !w.grantTable && !w.inletTable

/-- An answer of the completion: queued while there is room, and held otherwise (R124). -/
def State.answerOrHold (s : State) (p : Port) (r : Response) : State :=
  if (s.ctl p).responses.length < Config.responseQueue then s.enqueue p r
  else s.onSession p fun x => { x with heldAnswers := x.heldAnswers ++ [r] }

/-- The completion of a sweep (R123): VACANT, then the held BYE's answer, then the held HELLO's session and answer. -/
def State.completeSweep (s : State) (p : Port) : State :=
  let bye := (s.session p).heldBye
  let hello := (s.session p).heldHello
  let s := s.onSession p fun x =>
    { x with state := .vacant, agentClass := 0, name := List.replicate 16 0, sweep := none, heldBye := none,
             heldHello := none }
  let s :=
    match bye with
    | some tag => s.answerOrHold p { tag := tag, kind := RequestKind.bye.code, status := .ok, result := .none }
    | none => s
  match hello with
  | some h =>
    let s := s.beginSession p h.agentClass h.name
    s.answerOrHold p { tag := h.tag, kind := RequestKind.hello.code, status := .ok, result := s.helloResult p }
  | none => s

/-- ROUTE_TABLE_SWEEP (R60, R120); taken when it is not due it changes nothing (log 5). -/
def execRouteTableSweep (p : Port) (s : State) : Host.Outcome State Fault Refusal :=
  .next (event s fun s => if s.due p Sweep.routeTable then s.sweepRoutes p else s)

/-- GRANT_TABLE_SWEEP (R145, R120); taken when it is not due it changes nothing (log 5). -/
def execGrantTableSweep (p : Port) (s : State) : Host.Outcome State Fault Refusal :=
  .next (event s fun s => if s.due p Sweep.grantTable then s.sweepGrants p else s)

/-- INLET_TABLE_SWEEP (R36, R120); taken when it is not due it changes nothing (log 5). -/
def execInletTableSweep (p : Port) (s : State) : Host.Outcome State Fault Refusal :=
  .next (event s fun s => if s.due p Sweep.inletTable then s.sweepInlets p else s)

/-- SWEEP_COMPLETION (R123); taken before all three owners have reported it changes nothing (log 5). -/
def execSweepCompletion (p : Port) (s : State) : Host.Outcome State Fault Refusal :=
  .next (event s fun s => if s.swept p then s.completeSweep p else s)

end Sys2Proof.Machine
end

