-- ==== Sys2Proof/Machine/Session.lean ====
section
/-! DEFINITION. The session requests: HELLO, BYE, DORMANT, RESUME, STATUS (06). -/

namespace Sys2Proof.Machine

/-- HELLO at the session controller (R109, R110, R111). -/
def helloBlock (p : Port) (tag : Byte) (f : HelloFields) (s : State) : State × Answer :=
  match (s.session p).state with
  | .vacant =>
    let s := s.beginSession p f.agentClass f.name
    (s, .now .ok (s.helloResult p))
  | .attached | .dormant =>
    (s.startWithdrawal p (some { tag := tag, agentClass := f.agentClass, name := f.name }) none, .later)
  | .withdrawing =>
    match (s.session p).heldHello with
    | some _ => (s, .bare .busy)
    | none =>
      (s.onSession p fun x =>
        { x with heldHello := some { tag := tag, agentClass := f.agentClass, name := f.name } }, .later)

/-- HELLO (R109). -/
def execHello (p : Port) (tag : Byte) (body : Body HelloFields) (s : State) : Host.Outcome State Fault Refusal :=
  .next (takeRequest .hello p tag ((formOf formHello body).map (helloBlock p tag)) s)

/-- BYE at the session controller (R112): the gate has left ATTACHED and DORMANT. -/
def byeBlock (p : Port) (tag : Byte) (_ : Unit) (s : State) : State × Answer :=
  (s.startWithdrawal p none (some tag), .later)

/-- BYE (R112). -/
def execBye (p : Port) (tag : Byte) (body : List Byte) (s : State) : Host.Outcome State Fault Refusal :=
  .next (takeRequest .bye p tag ((formEmpty body).map (byeBlock p tag)) s)

/-- The DORMANT request at the session controller (R113). -/
def dormantBlock (p : Port) (_ : Unit) (s : State) : State × Answer :=
  if (s.session p).state = .dormant then (s, .bare .already)
  else if (s.engine p).state = .idle then
    (s.onSession p fun x => { x with state := .dormant, wakePending := false }, .bare .ok)
  else (s, .bare .busy)

/-- The DORMANT request (R113). -/
def execDormant (p : Port) (tag : Byte) (body : List Byte) (s : State) : Host.Outcome State Fault Refusal :=
  .next (takeRequest .dormant p tag ((formEmpty body).map (dormantBlock p)) s)

/-- RESUME at the session controller (R114). -/
def resumeBlock (p : Port) (_ : Unit) (s : State) : State × Answer :=
  if (s.session p).state = .dormant then
    (s.onSession p fun x => { x with state := .attached, wakePending := false }, .bare .ok)
  else (s, .bare .already)

/-- RESUME (R114). -/
def execResume (p : Port) (tag : Byte) (body : List Byte) (s : State) : Host.Outcome State Fault Refusal :=
  .next (takeRequest .resume p tag ((formEmpty body).map (resumeBlock p)) s)

/-- What STATUS reports (R115). -/
def State.statusReport (s : State) (p : Port) : StatusReport :=
  { port := p, controller := s.controller, session := (s.session p).state, generation := (s.session p).generation,
    supervisor := s.supervisorFlag p, wakePending := (s.session p).wakePending, lost := (s.session p).lost,
    delivery := (s.engine p).state, number := (s.engine p).number }

/-- STATUS (R115). -/
def statusBlock (p : Port) (_ : Unit) (s : State) : State × Answer := (s, .now .ok (.status (s.statusReport p)))

/-- STATUS (R115). -/
def execStatus (p : Port) (tag : Byte) (body : List Byte) (s : State) : Host.Outcome State Fault Refusal :=
  .next (takeRequest .status p tag ((formEmpty body).map (statusBlock p)) s)

end Sys2Proof.Machine
end

