-- ==== Sys2Proof/Machine/Supervision.lean ====
section
/-! DEFINITION. The supervision requests and the configuration record: EVICT, SET_PORT, SET_RESERVE, PORT_STATUS,
STORE_STATUS, SYSTEM_RESET (10). -/

namespace Sys2Proof.Machine

/-- EVICT (R181): a withdrawal that holds no request. -/
def evictBlock (q : Port) (s : State) : State × Answer :=
  match (s.session q).state with
  | .vacant | .withdrawing => (s, .bare .already)
  | .attached | .dormant => (s.startWithdrawal q none none, .bare .ok)

/-- EVICT (R181). -/
def execEvict (p : Port) (tag : Byte) (port : Body Nat) (s : State) : Host.Outcome State Fault Refusal :=
  .next (takeRequest .evict p tag ((formOf formEvict port).map evictBlock) s)

/-- The five settings of a port replaced together (R179). -/
def State.setSettings (s : State) (q : Port) (x : PortSettings) : State :=
  { s with config := { s.config with ports := s.config.ports.put q x } }

/-- SET_PORT (R179); the answer carries the settings as they now stand. -/
def setPortBlock (o : SetPortOp) (s : State) : State × Answer :=
  let s := s.setSettings o.port o.settings
  (s, .now .ok (.setPort (s.settings o.port)))

/-- SET_PORT (R179). -/
def execSetPort (p : Port) (tag : Byte) (body : Body SetPortFields) (s : State) : Host.Outcome State Fault Refusal :=
  .next (takeRequest .setPort p tag ((formOf formSetPort body).map setPortBlock) s)

/-- SET_RESERVE (R180): both values, and the store's free counts in the answer. -/
def setReserveBlock (o : SetReserveFields) (s : State) : State × Answer :=
  ({ s with config := { s.config with reserveCells := o.cells, reserveDescriptors := o.descriptors } },
    .now .ok (.setReserve o.cells o.descriptors s.store.freeCells s.store.freeDescriptors))

/-- SET_RESERVE (R180). -/
def execSetReserve (p : Port) (tag : Byte) (body : Body SetReserveFields) (s : State) :
    Host.Outcome State Fault Refusal :=
  .next (takeRequest .setReserve p tag ((formOf formSetReserve body).map setReserveBlock) s)

/-- What PORT_STATUS reports of a port (R182). -/
def State.portReport (s : State) (q : Port) : PortReport :=
  let x := s.session q
  let e := s.engine q
  let c := s.ctl q
  { port := q, session := x.state, generation := x.generation, agentClass := x.agentClass, name := x.name,
    wakePending := x.wakePending, lost := x.lost, helloHeld := x.heldHello.isSome, byeHeld := x.heldBye.isSome,
    delivery := e.state, number := e.number, stream := (s.stream q).map Stream.state, waiting := c.responses.length,
    overrun := c.overrun, settings := s.settings q, counters := c.counters }

/-- PORT_STATUS (R182). -/
def portStatusBlock (q : Port) (s : State) : State × Answer := (s, .now .ok (.portStatus (s.portReport q)))

/-- PORT_STATUS (R182). -/
def execPortStatus (p : Port) (tag : Byte) (port : Body Nat) (s : State) : Host.Outcome State Fault Refusal :=
  .next (takeRequest .portStatus p tag ((formOf (fin? 8) port).map portStatusBlock) s)

/-- What STORE_STATUS reports (R183). -/
def State.storeReport (s : State) : StoreReport :=
  { freeCells := s.store.freeCells, freeDescriptors := s.store.freeDescriptors, inUse := s.descriptors.length,
    reserveCells := s.config.reserveCells, reserveDescriptors := s.config.reserveDescriptors,
    nextMessage := s.store.nextMessage, nextSerial := s.store.nextSerial, refused := s.store.refused,
    lost := s.store.lost, freeFamilies := s.families.count Option.isNone, freeWindows := s.windows.count Option.isNone }

/-- STORE_STATUS (R183). -/
def storeStatusBlock (_ : Unit) (s : State) : State × Answer := (s, .now .ok (.storeStatus s.storeReport))

/-- STORE_STATUS (R183). -/
def execStoreStatus (p : Port) (tag : Byte) (body : List Byte) (s : State) : Host.Outcome State Fault Refusal :=
  .next (takeRequest .storeStatus p tag ((formEmpty body).map storeStatusBlock) s)

/-! ### System reset (R184) -/

/-- An outbound frame under way at a reset completes on the lines, and its outcome is that of a discarded entry (R174). -/
def Outbound.discard (o : Outbound) : Outbound := { o with carried := .discarded }

/-- A port controller in the event of a system reset (R174): the assembly is SPENT for the transaction in progress. -/
def PortController.systemReset (c : PortController) : PortController :=
  { PortController.fresh c.sel with
    assembly := if c.outbound.isSome then .spent else .searching
    outbound := c.outbound.map Outbound.discard }

/-- One column in the event of a system reset (R37, R61, R105, R125, R146, R174): generations are kept, and the engine's
record copies are as configured for the port. -/
def Column.systemReset (settings : PortSettings) (c : Column) : Column :=
  { session := Session.fresh c.session.generation, engine := Engine.fresh settings.timeout settings.retryLimit,
    stream := none, port := c.port.systemReset, inlets := freshInlets, lanes := freshLanes, routes := Tab.all 63 none,
    grants := Tab.all 8 none }

/-- A system reset (R184): configuration and bulk memory kept, supervisor present kept until start-up completes (R175). -/
def State.systemReset (s : State) (tag : Byte) : State :=
  let s' : State :=
    { s with controller := .starting, pendingReset := some tag, store := Store.fresh, families := Tab.all 256 none,
             windows := Tab.all 32 none }
  (List.finRange 8).foldl (fun t q => t.onCol q (Column.systemReset (s.settings q))) s'

/-- SYSTEM_RESET (R184); its answer is given when start-up completes (R185). -/
def systemResetBlock (tag : Byte) (_ : Unit) (s : State) : State × Answer := (s.systemReset tag, .later)

/-- SYSTEM_RESET (R184). -/
def execSystemReset (p : Port) (tag : Byte) (body : List Byte) (s : State) : Host.Outcome State Fault Refusal :=
  .next (takeRequest .systemReset p tag ((formEmpty body).map (systemResetBlock tag)) s)

end Sys2Proof.Machine
end

