-- ==== Sys2Proof/Decode.lean ====
section
/-! DEFINITION. Reading commands from bytes. The opcode table gives no row bits, so no word spells a command
(`decodeTableWord`). What the spec does encode is the inbound frame: `frameCommand` reads the command a whole frame spells
(R159 to R163, R166), and `requestBody` writes the body of a request's frame. Multi-byte numbers stand most significant byte
first, and the fields of a request in the order its chapter lists them (R162). -/

namespace Sys2Proof

open Machine

/-- The command a table word spells: no row of the opcode table gives bits, so none does. -/
def decodeTableWord (_nbits _w : Nat) : Option Instr := none

/-! ### Numbers -/

/-- Two bytes as a number (R162). -/
def num16 (a b : Byte) : Nat := a.toNat * 256 + b.toNat

/-- Four bytes as a number (R162). -/
def num32 (a b c d : Byte) : Nat := ((a.toNat * 256 + b.toNat) * 256 + c.toNat) * 256 + d.toNat

/-! ### The shapes of request bodies: a body whose length is not the request's is kept as its bytes (R150) -/

/-- One field of one byte. -/
def shapeByte : List Byte → Body Nat
  | [a] => .fields a.toNat
  | bs => .misshapen bs

/-- STREAM_READ: a count of two bytes (R143, R162). -/
def shapeCount : List Byte → Body Nat
  | [a, b] => .fields (num16 a b)
  | bs => .misshapen bs

/-- HELLO: 17 bytes (R109). -/
def shapeHello : List Byte → Body HelloFields
  | c :: name => if name.length = 16 then .fields { agentClass := c, name := name } else .misshapen (c :: name)
  | [] => .misshapen []

/-- CREATE_ROUTE (R49). -/
def shapeCreateRoute : List Byte → Body CreateRouteFields
  | [i, a, b, r, q, n] =>
    .fields { inlet := i.toNat, label := num16 a b, rights := r.toNat, quota := q.toNat, notify := n.toNat }
  | bs => .misshapen bs

/-- OPEN_INLET (R22). -/
def shapeOpenInlet : List Byte → Body OpenInletFields
  | [i, l, d, w] => .fields { inlet := i.toNat, lane := l.toNat, depth := d.toNat, wake := w.toNat }
  | bs => .misshapen bs

/-- CLOSE_INLET (R25). -/
def shapeCloseInlet : List Byte → Body CloseInletFields
  | [i, m] => .fields { inlet := i.toNat, mode := m.toNat }
  | bs => .misshapen bs

/-- SET_INLET (R23). -/
def shapeSetInlet : List Byte → Body SetInletFields
  | [i, d, w, l] => .fields { inlet := i.toNat, depth := d.toNat, wake := w.toNat, lane := l.toNat }
  | bs => .misshapen bs

/-- SET_LANE (R33). -/
def shapeSetLane : List Byte → Body SetLaneFields
  | [l, m] => .fields { lane := l.toNat, mode := m.toNat }
  | bs => .misshapen bs

/-- RECEIVE (R35). -/
def shapeReceive : List Byte → Body ReceiveFields
  | [i, c] => .fields { inlet := i.toNat, count := c.toNat }
  | bs => .misshapen bs

/-- CREATE_WINDOW (R133): offsets of four bytes. -/
def shapeCreateWindow : List Byte → Body CreateWindowFields
  | [a, b, c, d, e, f, g, h, s] =>
    .fields { base := num32 a b c d, limit := num32 e f g h, share := s.toNat }
  | bs => .misshapen bs

/-- STREAM_OPEN (R141). -/
def shapeStreamOpen : List Byte → Body StreamOpenFields
  | [g, d, o] => .fields { slot := g.toNat, direction := d.toNat, order := o.toNat }
  | bs => .misshapen bs

/-- SET_PORT (R179). -/
def shapeSetPort : List Byte → Body SetPortFields
  | [p, t, r, m, a, b, c, d, e, f, g, h] =>
    .fields { port := p.toNat, timeout := t.toNat, retryLimit := r.toNat, atnMode := m.toNat, base := num32 a b c d,
              length := num32 e f g h }
  | bs => .misshapen bs

/-- SET_RESERVE (R180): cells to 512 take two bytes, descriptors to 64 one. -/
def shapeSetReserve : List Byte → Body SetReserveFields
  | [a, b, d] => .fields { cells := num16 a b, descriptors := d.toNat }
  | bs => .misshapen bs

/-- The enclosure specs of a SEND, five bytes each (R62, R162), and the bytes after them. -/
def readSpecs : (n : Nat) → List Byte → Option (List SpecFields × List Byte)
  | 0, bs => some ([], bs)
  | n + 1, k :: i :: m :: r :: q :: bs =>
    match readSpecs n bs with
    | some (xs, rest) =>
      some ({ kind := k.toNat, slot := i.toNat, mode := m.toNat, rights := r.toNat, quota := q.toNat } :: xs, rest)
    | none => none
  | _ + 1, _ => none

/-- The reply inlet of a SEND: one byte when MINT_REPLY is set, omitted otherwise (R62, R162). -/
def readReply (mint : Byte) : List Byte → Option (Option Nat × List Byte)
  | bs =>
    if mint = 1 then
      match bs with
      | b :: rest => some (some b.toNat, rest)
      | [] => none
    else some (none, bs)

/-- The part of a SEND from its spec count on. -/
def readSendTail (slot ret mint : Byte) (reply : Option Nat) : List Byte → Option SendFields
  | n :: bs =>
    match readSpecs n.toNat bs with
    | some (specs, a :: b :: body) =>
      some { slot := slot.toNat, ret := ret.toNat, mint := mint.toNat, replyInlet := reply, specs := specs,
             bodyLength := num16 a b, body := body }
    | _ => none
  | [] => none

def readSend : List Byte → Option SendFields
  | slot :: ret :: mint :: bs =>
    match readReply mint bs with
    | some (reply, rest) => readSendTail slot ret mint reply rest
    | none => none
  | _ => none

/-- SEND (R62): the length its own counts and lengths give. -/
def shapeSend (bs : List Byte) : Body SendFields :=
  match readSend bs with
  | some f => .fields f
  | none => .misshapen bs

/-! ### Request kinds -/

/-- The 28 requests, in the order of their codes (R162). -/
def allKinds : List RequestKind :=
  [.hello, .bye, .dormant, .resume, .status, .createRoute, .dropRoute, .revokeFamily, .routeInfo, .openInlet,
   .closeInlet, .setInlet, .setLane, .receive, .inletStatus, .send, .createWindow, .closeWindow, .dropGrant,
   .streamOpen, .streamData, .streamRead, .evict, .setPort, .setReserve, .portStatus, .storeStatus, .systemReset]

/-- The request a request-kind byte names (R162). -/
def kindOf (b : Byte) : Option RequestKind := allKinds.find? fun k => decide (k.code = b)

/-- The request of a kind with the bytes of its fields. -/
def requestOf (kind : RequestKind) (p : Port) (tag : Byte) (bs : List Byte) : Instr :=
  match kind with
  | .hello => .hello p tag (shapeHello bs)
  | .bye => .bye p tag bs
  | .dormant => .dormant p tag bs
  | .resume => .resume p tag bs
  | .status => .status p tag bs
  | .createRoute => .createRoute p tag (shapeCreateRoute bs)
  | .dropRoute => .dropRoute p tag (shapeByte bs)
  | .revokeFamily => .revokeFamily p tag (shapeByte bs)
  | .routeInfo => .routeInfo p tag (shapeByte bs)
  | .openInlet => .openInlet p tag (shapeOpenInlet bs)
  | .closeInlet => .closeInlet p tag (shapeCloseInlet bs)
  | .setInlet => .setInlet p tag (shapeSetInlet bs)
  | .setLane => .setLane p tag (shapeSetLane bs)
  | .receive => .receive p tag (shapeReceive bs)
  | .inletStatus => .inletStatus p tag (shapeByte bs)
  | .send => .send p tag (shapeSend bs)
  | .createWindow => .createWindow p tag (shapeCreateWindow bs)
  | .closeWindow => .closeWindow p tag (shapeByte bs)
  | .dropGrant => .dropGrant p tag (shapeByte bs)
  | .streamOpen => .streamOpen p tag (shapeStreamOpen bs)
  | .streamData => .streamData p tag bs
  | .streamRead => .streamRead p tag (shapeCount bs)
  | .evict => .evict p tag (shapeByte bs)
  | .setPort => .setPort p tag (shapeSetPort bs)
  | .setReserve => .setReserve p tag (shapeSetReserve bs)
  | .portStatus => .portStatus p tag (shapeByte bs)
  | .storeStatus => .storeStatus p tag bs
  | .systemReset => .systemReset p tag bs

/-- The request a REQUEST frame's body spells; an empty body names no request and has kind 0x00 (R162). -/
def requestCommand (p : Port) (tag : Byte) : List Byte → Instr
  | [] => .unknownRequestKind p tag 0 []
  | k :: bs =>
    match kindOf k with
    | some kind => requestOf kind p tag bs
    | none => .unknownRequestKind p tag k bs

/-! ### Whole frames -/

/-- The tag of an inbound frame, once its five header bytes have been received (R167). -/
def frameTag (bytes : List Byte) : Option Byte := if 5 ≤ bytes.length then bytes[2]? else none

/-- The CRC a whole frame should carry (R161): over everything between the sync byte and the two CRC bytes. -/
def frameCrcHolds (bytes : List Byte) : Bool :=
  let covered := (bytes.drop 1).take (bytes.length - 3)
  decide (bytes.drop (bytes.length - 2) = be16 (crc16 covered).toNat)

/-- The body of a whole frame. -/
def frameBody (bytes : List Byte) : List Byte := (bytes.drop 5).take (bytes.length - 7)

/-- The command a whole inbound frame spells (R166): the CRC is judged first, then the kind and the length of an ACK or
NAK. -/
def frameCommand (p : Port) (bytes : List Byte) : Instr :=
  if frameCrcHolds bytes = false then .inboundFrameError p (frameTag bytes)
  else
    let body := frameBody bytes
    let kind := bytes.getD 1 0
    if kind = 1 then requestCommand p (bytes.getD 2 0) body
    else if kind = 2 then
      match body with
      | [n] => .ack p n
      | _ => .inboundFrameError p (frameTag bytes)
    else if kind = 3 then
      match body with
      | [n] => .nak p n
      | _ => .inboundFrameError p (frameTag bytes)
    else .inboundFrameError p (frameTag bytes)

/-! ### Writing a request's body -/

/-- A number in four bytes, most significant first (R162). -/
def wide (n : Nat) : List Byte := [byteOf (n / 16777216), byteOf (n / 65536), byteOf (n / 256), byteOf n]

def bodyBytes {α : Type} (write : α → List Byte) : Body α → List Byte
  | .fields f => write f
  | .misshapen bs => bs

def specBytes (x : SpecFields) : List Byte :=
  [byteOf x.kind, byteOf x.slot, byteOf x.mode, byteOf x.rights, byteOf x.quota]

def replyBytes : Option Nat → List Byte
  | some n => [byteOf n]
  | none => []

def sendBytes (f : SendFields) : List Byte :=
  [byteOf f.slot, byteOf f.ret, byteOf f.mint] ++ replyBytes f.replyInlet
    ++ (byteOf f.specs.length :: (f.specs.flatMap specBytes ++ (be16 f.bodyLength ++ f.body)))

/-- The body of the REQUEST frame that spells a request; a command that is no request has none. -/
def requestBody : Instr → Option (List Byte)
  | .hello _ _ b => some (RequestKind.hello.code :: bodyBytes (fun f => f.agentClass :: f.name) b)
  | .bye _ _ b => some (RequestKind.bye.code :: b)
  | .dormant _ _ b => some (RequestKind.dormant.code :: b)
  | .resume _ _ b => some (RequestKind.resume.code :: b)
  | .status _ _ b => some (RequestKind.status.code :: b)
  | .createRoute _ _ b => some (RequestKind.createRoute.code ::
      bodyBytes (fun f => byteOf f.inlet :: (be16 f.label ++ [byteOf f.rights, byteOf f.quota, byteOf f.notify])) b)
  | .dropRoute _ _ b => some (RequestKind.dropRoute.code :: bodyBytes (fun n => [byteOf n]) b)
  | .revokeFamily _ _ b => some (RequestKind.revokeFamily.code :: bodyBytes (fun n => [byteOf n]) b)
  | .routeInfo _ _ b => some (RequestKind.routeInfo.code :: bodyBytes (fun n => [byteOf n]) b)
  | .openInlet _ _ b => some (RequestKind.openInlet.code ::
      bodyBytes (fun f => [byteOf f.inlet, byteOf f.lane, byteOf f.depth, byteOf f.wake]) b)
  | .closeInlet _ _ b => some (RequestKind.closeInlet.code :: bodyBytes (fun f => [byteOf f.inlet, byteOf f.mode]) b)
  | .setInlet _ _ b => some (RequestKind.setInlet.code ::
      bodyBytes (fun f => [byteOf f.inlet, byteOf f.depth, byteOf f.wake, byteOf f.lane]) b)
  | .setLane _ _ b => some (RequestKind.setLane.code :: bodyBytes (fun f => [byteOf f.lane, byteOf f.mode]) b)
  | .receive _ _ b => some (RequestKind.receive.code :: bodyBytes (fun f => [byteOf f.inlet, byteOf f.count]) b)
  | .inletStatus _ _ b => some (RequestKind.inletStatus.code :: bodyBytes (fun n => [byteOf n]) b)
  | .send _ _ b => some (RequestKind.send.code :: bodyBytes sendBytes b)
  | .createWindow _ _ b => some (RequestKind.createWindow.code ::
      bodyBytes (fun f => wide f.base ++ wide f.limit ++ [byteOf f.share]) b)
  | .closeWindow _ _ b => some (RequestKind.closeWindow.code :: bodyBytes (fun n => [byteOf n]) b)
  | .dropGrant _ _ b => some (RequestKind.dropGrant.code :: bodyBytes (fun n => [byteOf n]) b)
  | .streamOpen _ _ b => some (RequestKind.streamOpen.code ::
      bodyBytes (fun f => [byteOf f.slot, byteOf f.direction, byteOf f.order]) b)
  | .streamData _ _ b => some (RequestKind.streamData.code :: b)
  | .streamRead _ _ b => some (RequestKind.streamRead.code :: bodyBytes be16 b)
  | .evict _ _ b => some (RequestKind.evict.code :: bodyBytes (fun n => [byteOf n]) b)
  | .setPort _ _ b => some (RequestKind.setPort.code ::
      bodyBytes (fun f => [byteOf f.port, byteOf f.timeout, byteOf f.retryLimit, byteOf f.atnMode] ++ wide f.base
        ++ wide f.length) b)
  | .setReserve _ _ b => some (RequestKind.setReserve.code ::
      bodyBytes (fun f => be16 f.cells ++ [byteOf f.descriptors]) b)
  | .portStatus _ _ b => some (RequestKind.portStatus.code :: bodyBytes (fun n => [byteOf n]) b)
  | .storeStatus _ _ b => some (RequestKind.storeStatus.code :: b)
  | .systemReset _ _ b => some (RequestKind.systemReset.code :: b)
  | .unknownRequestKind _ _ k b => some (k :: b)
  | .ack _ _ | .nak _ _ | .inboundFrameError _ _ | .transactionStart _ | .transactionEnd _ | .frameShiftedOut _
  | .timerExpiry _ | .atnPulseEnd _ | .deliveryChoice _ | .routeTableSweep _ | .grantTableSweep _ | .inletTableSweep _
  | .sweepCompletion _ | .powerOn | .resetPinAssert | .resetPinRelease | .startupCompletion _ | .byteReceived _ _ => none

/-- The port and tag of a request. -/
def requestHeader : Instr → Option (Port × Byte)
  | .hello p t _ | .bye p t _ | .dormant p t _ | .resume p t _ | .status p t _ | .createRoute p t _ | .dropRoute p t _
  | .revokeFamily p t _ | .routeInfo p t _ | .openInlet p t _ | .closeInlet p t _ | .setInlet p t _ | .setLane p t _
  | .receive p t _ | .inletStatus p t _ | .send p t _ | .createWindow p t _ | .closeWindow p t _ | .dropGrant p t _
  | .streamOpen p t _ | .streamData p t _ | .streamRead p t _ | .evict p t _ | .setPort p t _ | .setReserve p t _
  | .portStatus p t _ | .storeStatus p t _ | .systemReset p t _ | .unknownRequestKind p t _ _ => some (p, t)
  | .ack _ _ | .nak _ _ | .inboundFrameError _ _ | .transactionStart _ | .transactionEnd _ | .frameShiftedOut _
  | .timerExpiry _ | .atnPulseEnd _ | .deliveryChoice _ | .routeTableSweep _ | .grantTableSweep _ | .inletTableSweep _
  | .sweepCompletion _ | .powerOn | .resetPinAssert | .resetPinRelease | .startupCompletion _ | .byteReceived _ _ => none

end Sys2Proof
end

