-- ==== Sys2Proof/Machine/Transactions.lean ====
section
/-! DEFINITION. The agent port: inbound frame errors, requests of no known kind, the outbound arbiter, the two outcomes of an
outbound frame, and the end of an ATN pulse (09). -/

namespace Sys2Proof.Machine

/-! ### Frames that are not requests -/

/-- An inbound frame error (R167): counted; answered FRAME_ERROR with request kind 0x00, or, when the queue holds 4
responses, counted as an overrun. -/
def State.frameFailed (s : State) (p : Port) (tag : Option Byte) : State :=
  let s := s.count p Counters.addFrameError
  if (s.ctl p).responses.length < Config.responseQueue then s.respond p (tag.getD 0) 0 .frameError .none
  else s.loseRequest p

/-- An inbound frame error (R166, R167). -/
def execInboundFrameError (p : Port) (tag : Option Byte) (s : State) : Host.Outcome State Fault Refusal :=
  .next (takeFrame p (fun s => s.frameFailed p tag) s)

/-- A REQUEST whose kind names no request (R150, R162): counted, lost to overrun as any request, else it closes the stream
(R140) and is answered BAD_REQUEST, echoing the kind. -/
def execUnknownRequestKind (p : Port) (tag kind : Byte) (_body : List Byte) (s : State) :
    Host.Outcome State Fault Refusal :=
  .next (takeFrame p
    (fun s =>
      let s := s.count p Counters.addFrameIn
      if (s.ctl p).responses.length < Config.responseQueue then
        (s.setStream p none).respond p tag kind .badRequest .none
      else s.loseRequest p)
    s)

/-! ### The start of a transaction -/

/-- The 7 bytes of an IDLE frame's body (R164). -/
def State.idleBody (s : State) (p : Port) : List Byte :=
  let x := s.session p
  match s.controller with
  | .starting =>
    [ControllerState.starting.code, SessionState.vacant.code, byteOf x.generation, byteOf (s.ctl p).responses.length,
     (s.engine p).state.code, 0, 0]
  | .running =>
    [ControllerState.running.code, x.state.code, byteOf x.generation, byteOf (s.ctl p).responses.length,
     (s.engine p).state.code, flagByte x.wakePending, byteOf x.lost]

/-- The IDLE frame (R160, R164). -/
def State.idleFrame (s : State) (p : Port) : Outbound :=
  { carried := .idle, bytes := frameBytes 0x83 0 (s.idleBody p), progress := 0 }

/-- The kind of frame the arbiter fixes (R170): absent for IDLE. -/
def State.arbitrate (s : State) (p : Port) : Option Turn :=
  let waits := !(s.ctl p).responses.isEmpty
  let presented := decide ((s.engine p).state = .presented)
  match s.controller with
  | .starting => none
  | .running =>
    match waits, presented with
    | false, false => none
    | true, false => some .response
    | false, true => some .deliver
    | true, true => some (s.ctl p).turn

/-- The other kind (R170). -/
def Turn.other : Turn → Turn
  | .response => .deliver
  | .deliver => .response

/-- The outbound frame for the kind chosen (R158, R169, R170). A PRESENTED engine holds a frame (R83, R90); where no run
reaches one that does not, the frame is an IDLE one (DESIGN CHOICE, unsafe: log 11). -/
def State.outboundFrame (s : State) (p : Port) : Option Turn → Outbound
  | none => s.idleFrame p
  | some .response =>
    match (s.ctl p).responses with
    | r :: _ =>
      { carried := .response (s.ctl p).overrun, bytes := r.frame (s.ctl p).overrun, progress := 0 }
    | [] => s.idleFrame p
  | some .deliver =>
    match (s.engine p).frame with
    | some f => { carried := .deliver f.number, bytes := f.bytes, progress := 0 }
    | none => s.idleFrame p

/-- SEL asserted (R156, R158, R159, R170). -/
def State.startTransaction (s : State) (p : Port) : State :=
  let kind := s.arbitrate p
  let frame := s.outboundFrame p kind
  s.onCtl p fun c =>
    { c with
      sel := true
      assembly := .searching
      outbound := some frame
      turn := match kind with
        | some t => t.other
        | none => c.turn }

/-- TRANSACTION_START (R156, R170). While RSTN is low the edge begins no transaction; SEL already asserted gives no falling
edge (log 5). -/
def execTransactionStart (p : Port) (s : State) : Host.Outcome State Fault Refusal :=
  .next
    (if (s.ctl p).sel then s
     else if s.rstnLow then s.onCtl p fun c => { c with sel := true }
     else followAtn s (s.startTransaction p))

/-! ### The outcomes of an outbound frame -/

/-- A response shifted out whole (R169, R171): it leaves the head of the queue, the overrun count falls by the value its
frame carried, and held answers move in (R124). -/
def State.responseOut (s : State) (p : Port) (carried : Nat) : State :=
  (s.onCtl p fun c => { c with responses := c.responses.drop 1, overrun := c.overrun - carried }).moveHeld p

/-- A DELIVER frame shifted out whole, reported to the engine (R91). -/
def State.deliverOut (s : State) (p : Port) (number : Nat) : State :=
  if (s.engine p).state = .presented ∧ (s.engine p).number = number then
    s.onEngine p fun e => { e with state := .sent, timer := some e.timeout }
  else s

/-- What the port does when the frame of a transaction has shifted out whole (R171). -/
def State.frameOut (s : State) (p : Port) : Carried → State
  | .idle => s
  | .response n => s.responseOut p n
  | .deliver n => s.deliverOut p n
  | .discarded => s

/-- The outbound frame's progress set. -/
def State.setProgress (s : State) (p : Port) (o : Outbound) (n : Nat) : State :=
  s.onCtl p fun c => { c with outbound := some { o with progress := n } }

/-- FRAME_SHIFTED_OUT (R171): the last byte goes, once in a transaction. -/
def execFrameShiftedOut (p : Port) (s : State) : Host.Outcome State Fault Refusal :=
  .next (event s fun s =>
    match (s.ctl p).outbound with
    | some o =>
      if o.progress < o.bytes.length then (s.setProgress p o o.bytes.length).frameOut p o.carried else s
    | none => s)

/-- SEL released with a transaction under way (R159, R171): a frame cut short changes nothing, a frame under assembly is an
inbound frame error unless the controller is STARTING (R148). -/
def State.endTransaction (s : State) (p : Port) : State :=
  let s' := s.onCtl p fun c => { c with sel := false, outbound := none, assembly := .searching }
  match (s.ctl p).assembly, s.controller with
  | .inFrame bytes, .running => s'.frameFailed p (frameTag bytes)
  | .inFrame _, .starting => s'
  | .searching, _ => s'
  | .spent, _ => s'

/-- TRANSACTION_END (R156, R171). -/
def execTransactionEnd (p : Port) (s : State) : Host.Outcome State Fault Refusal :=
  .next
    (if s.rstnLow = false ∧ s.inTransaction p = true then followAtn s (s.endTransaction p)
     else s.onCtl p fun c => { c with sel := false })

/-- ATN_PULSE_END (R172): a pulse has run its full width. -/
def execAtnPulseEnd (p : Port) (s : State) : Host.Outcome State Fault Refusal :=
  .next (event s fun s => s.onCtl p fun c => if c.atn = .pulsing then { c with atn := .released } else c)

/-- The byte SDO is carrying (R156, R158): absent at high impedance, 0x00 after the frame's last byte. Where SEL has stayed low
through power-on or the release of RSTN no transaction runs; the pin table has SDO driven while SEL is low, but no rule gives it a
byte to carry then: here it is at high impedance until the next transaction (DESIGN CHOICE, unsafe: log 16). -/
def State.sdo (s : State) (p : Port) : Option Byte :=
  match (s.ctl p).outbound with
  | some o => some (o.bytes.getD o.progress 0)
  | none => none

end Sys2Proof.Machine
end

