-- ==== Sys2Proof/Machine/Receiving.lean ====
section
/-! DEFINITION. A byte received within a transaction: the outbound frame moves by one byte, and the inbound assembly takes the
byte (R156, R159). A frame that has arrived whole is taken as the command it spells. -/

namespace Sys2Proof.Machine

/-- A command spelled by a frame, run as that command. `frameCommand` spells no other kind of command, so no byte reaches
the last arm. -/
def runFrame (i : Instr) (s : State) : Host.Outcome State Fault Refusal :=
  match i with
  | .hello p tag body => execHello p tag body s
  | .bye p tag body => execBye p tag body s
  | .dormant p tag body => execDormant p tag body s
  | .resume p tag body => execResume p tag body s
  | .status p tag body => execStatus p tag body s
  | .createRoute p tag body => execCreateRoute p tag body s
  | .dropRoute p tag slot => execDropRoute p tag slot s
  | .revokeFamily p tag family => execRevokeFamily p tag family s
  | .routeInfo p tag slot => execRouteInfo p tag slot s
  | .openInlet p tag body => execOpenInlet p tag body s
  | .closeInlet p tag body => execCloseInlet p tag body s
  | .setInlet p tag body => execSetInlet p tag body s
  | .setLane p tag body => execSetLane p tag body s
  | .receive p tag body => execReceive p tag body s
  | .inletStatus p tag inlet => execInletStatus p tag inlet s
  | .send p tag body => execSend p tag body s
  | .createWindow p tag body => execCreateWindow p tag body s
  | .closeWindow p tag slot => execCloseWindow p tag slot s
  | .dropGrant p tag slot => execDropGrant p tag slot s
  | .streamOpen p tag body => execStreamOpen p tag body s
  | .streamData p tag data => execStreamData p tag data s
  | .streamRead p tag count => execStreamRead p tag count s
  | .evict p tag port => execEvict p tag port s
  | .setPort p tag body => execSetPort p tag body s
  | .setReserve p tag body => execSetReserve p tag body s
  | .portStatus p tag port => execPortStatus p tag port s
  | .storeStatus p tag body => execStoreStatus p tag body s
  | .systemReset p tag body => execSystemReset p tag body s
  | .unknownRequestKind p tag kind body => execUnknownRequestKind p tag kind body s
  | .ack p number => execAck p number s
  | .nak p number => execNak p number s
  | .inboundFrameError p tag => execInboundFrameError p tag s
  | .transactionStart _ | .transactionEnd _ | .frameShiftedOut _ | .timerExpiry _ | .atnPulseEnd _ | .deliveryChoice _
  | .routeTableSweep _ | .grantTableSweep _ | .inletTableSweep _ | .sweepCompletion _ | .powerOn | .resetPinAssert
  | .resetPinRelease | .startupCompletion _ | .byteReceived _ _ => .next s

/-- What the assembly makes of a byte (R159). -/
inductive Arrival where
  | ignored
  | kept (bytes : List Byte)
  | ended (command : Instr)
  deriving DecidableEq, Repr

/-- The length a frame's header gives, once byte 4 has been received (R160). -/
def headerLength (bytes : List Byte) : Nat := num16 (bytes.getD 3 0) (bytes.getD 4 0)

/-- The assembly takes a byte (R159, R166). -/
def Assembly.take (p : Port) (a : Assembly) (b : Byte) : Arrival :=
  match a with
  | .searching => if b = 0xC3 then .kept [b] else .ignored
  | .spent => .ignored
  | .inFrame bytes =>
    let all := bytes ++ [b]
    if all.length < 5 then .kept all
    else if Config.frameBodyMax < headerLength all then .ended (.inboundFrameError p (frameTag all))
    else if all.length = headerLength all + 7 then .ended (frameCommand p all)
    else .kept all

/-- The outbound byte of the same eight SCK edges (R156): the frame's progress, and its outcome at its last byte. -/
def State.shiftByte (s : State) (p : Port) : State :=
  match (s.ctl p).outbound with
  | some o =>
    if o.progress < o.bytes.length then
      let s' := s.setProgress p o (o.progress + 1)
      if o.progress + 1 = o.bytes.length then s'.frameOut p o.carried else s'
    else s
  | none => s

/-- The inbound byte (R159). -/
def State.takeByte (s : State) (p : Port) (b : Byte) : Host.Outcome State Fault Refusal :=
  match (s.ctl p).assembly.take p b with
  | .ignored => .next s
  | .kept bytes => .next (s.onCtl p fun c => { c with assembly := .inFrame bytes })
  | .ended command => runFrame command s

/-- BYTE_RECEIVED (R156, R159). With no transaction under way the byte is ignored. The outbound byte goes first: a response
whose last byte shifts out on this edge has left the queue when the inbound frame is taken (R168). -/
def execByteReceived (p : Port) (byte : Byte) (s : State) : Host.Outcome State Fault Refusal :=
  if s.rstnLow = false ∧ s.inTransaction p = true then (followAtn s (s.shiftByte p)).takeByte p byte else .next s

end Sys2Proof.Machine
end

