-- ==== Sys2Proof/Machine/Resets.lean ====
section
/-! DEFINITION. Power-on, the reset pin, and the completion of start-up (R156, R177, R178, R185). -/

namespace Sys2Proof.Machine

/-- The column of a port after power-on or the reset pin, with the level its SEL line has. -/
def Column.restart (c : Column) : Column := Column.fresh c.port.sel

/-- The part right after power-on or the release of RSTN (R177), with bulk memory as given; SEL levels and the commands that
wait are the outside world's and stay. -/
def State.restart (s : State) (bulk : List Host.Cell) : State :=
  { State.reset with bulk := bulk, columns := s.columns.map Column.restart, pending := s.pending }

/-- POWER_ON (R177): every byte of bulk memory is 0 (R126). R177 speaks of power-on with RSTN high only: here POWER_ON leaves RSTN
high and the part STARTING from any state, and supply established while RSTN is held low is POWER_ON with RESET_PIN_ASSERT after it
(DESIGN CHOICE, unsafe: log 15). -/
def execPowerOn (s : State) : Host.Outcome State Fault Refusal := .next (s.restart [])

/-- A port while RSTN is low (R156): its lines ignored, its transaction ended, ATN released. -/
def Column.halt (c : Column) : Column :=
  { c with port := { c.port with assembly := .searching, outbound := none, atn := .released } }

/-- RESET_PIN_ASSERT (R156, R177): the part is halted, and a start-up in progress is abandoned with its pending answer. What
RSTN low leaves in the records until its release is not stated; they are kept (DESIGN CHOICE, unsafe: log 13). -/
def execResetPinAssert (s : State) : Host.Outcome State Fault Refusal :=
  .next { s with rstnLow := true, pendingReset := none, columns := s.columns.map Column.halt }

/-- RESET_PIN_RELEASE (R177): as power-on, but bulk memory keeps its contents (R126); with RSTN already high there is no
edge (log 5). -/
def execResetPinRelease (s : State) : Host.Outcome State Fault Refusal :=
  .next (if s.rstnLow then s.restart s.bulk else s)

/-- The completion of start-up (R177, R178, R185): the strap sampled, RUNNING, and the answer to a SYSTEM_RESET queued on
port 0. -/
def State.completeStartup (s : State) (strap : Bool) : State :=
  let s' : State := { s with controller := .running, supervisor := strap, pendingReset := none }
  match s.pendingReset with
  | some tag => s'.respond 0 tag RequestKind.systemReset.code .ok (.systemReset (s'.supervisorFlag 0))
  | none => s'

/-- STARTUP_COMPLETION (R177, R178, R185); while RSTN is low or the controller is RUNNING no start-up is under way
(log 5). -/
def execStartupCompletion (strap : Bool) (s : State) : Host.Outcome State Fault Refusal :=
  .next (event s fun s => if s.controller = .starting then s.completeStartup strap else s)

end Sys2Proof.Machine
end

