-- ==== Sys2Proof/Machine/Dispatch.lean ====
section
/-! DEFINITION. The meaning of every command: one arm for each constructor of `Instr`. -/
namespace Sys2Proof.Machine
def exec (i : Instr) (s : State) : Host.Outcome State Fault Refusal :=
  match i with
  | .hello p tag body => Sys2Proof.Machine.execHello p tag body s
  | .bye p tag body => Sys2Proof.Machine.execBye p tag body s
  | .dormant p tag body => Sys2Proof.Machine.execDormant p tag body s
  | .resume p tag body => Sys2Proof.Machine.execResume p tag body s
  | .status p tag body => Sys2Proof.Machine.execStatus p tag body s
  | .createRoute p tag body => Sys2Proof.Machine.execCreateRoute p tag body s
  | .dropRoute p tag slot => Sys2Proof.Machine.execDropRoute p tag slot s
  | .revokeFamily p tag family => Sys2Proof.Machine.execRevokeFamily p tag family s
  | .routeInfo p tag slot => Sys2Proof.Machine.execRouteInfo p tag slot s
  | .openInlet p tag body => Sys2Proof.Machine.execOpenInlet p tag body s
  | .closeInlet p tag body => Sys2Proof.Machine.execCloseInlet p tag body s
  | .setInlet p tag body => Sys2Proof.Machine.execSetInlet p tag body s
  | .setLane p tag body => Sys2Proof.Machine.execSetLane p tag body s
  | .receive p tag body => Sys2Proof.Machine.execReceive p tag body s
  | .inletStatus p tag inlet => Sys2Proof.Machine.execInletStatus p tag inlet s
  | .send p tag body => Sys2Proof.Machine.execSend p tag body s
  | .createWindow p tag body => Sys2Proof.Machine.execCreateWindow p tag body s
  | .closeWindow p tag slot => Sys2Proof.Machine.execCloseWindow p tag slot s
  | .dropGrant p tag slot => Sys2Proof.Machine.execDropGrant p tag slot s
  | .streamOpen p tag body => Sys2Proof.Machine.execStreamOpen p tag body s
  | .streamData p tag data => Sys2Proof.Machine.execStreamData p tag data s
  | .streamRead p tag count => Sys2Proof.Machine.execStreamRead p tag count s
  | .evict p tag port => Sys2Proof.Machine.execEvict p tag port s
  | .setPort p tag body => Sys2Proof.Machine.execSetPort p tag body s
  | .setReserve p tag body => Sys2Proof.Machine.execSetReserve p tag body s
  | .portStatus p tag port => Sys2Proof.Machine.execPortStatus p tag port s
  | .storeStatus p tag body => Sys2Proof.Machine.execStoreStatus p tag body s
  | .systemReset p tag body => Sys2Proof.Machine.execSystemReset p tag body s
  | .unknownRequestKind p tag kind body => Sys2Proof.Machine.execUnknownRequestKind p tag kind body s
  | .ack p number => Sys2Proof.Machine.execAck p number s
  | .nak p number => Sys2Proof.Machine.execNak p number s
  | .inboundFrameError p tag => Sys2Proof.Machine.execInboundFrameError p tag s
  | .transactionStart p => Sys2Proof.Machine.execTransactionStart p s
  | .transactionEnd p => Sys2Proof.Machine.execTransactionEnd p s
  | .frameShiftedOut p => Sys2Proof.Machine.execFrameShiftedOut p s
  | .timerExpiry p => Sys2Proof.Machine.execTimerExpiry p s
  | .atnPulseEnd p => Sys2Proof.Machine.execAtnPulseEnd p s
  | .deliveryChoice p => Sys2Proof.Machine.execDeliveryChoice p s
  | .routeTableSweep p => Sys2Proof.Machine.execRouteTableSweep p s
  | .grantTableSweep p => Sys2Proof.Machine.execGrantTableSweep p s
  | .inletTableSweep p => Sys2Proof.Machine.execInletTableSweep p s
  | .sweepCompletion p => Sys2Proof.Machine.execSweepCompletion p s
  | .powerOn => Sys2Proof.Machine.execPowerOn s
  | .resetPinAssert => Sys2Proof.Machine.execResetPinAssert s
  | .resetPinRelease => Sys2Proof.Machine.execResetPinRelease s
  | .startupCompletion strap => Sys2Proof.Machine.execStartupCompletion strap s
  | .byteReceived p byte => Sys2Proof.Machine.execByteReceived p byte s
end Sys2Proof.Machine
end

