-- ==== Sys2Proof/WellFormed.lean ====
section
/-! DEFINITION. The commands a frame can spell: every field fits the bytes it is encoded in (R162), a body kept as its bytes
really has a length that is not its request's, and a request of no known kind names none. A command that is no request is
always well-formed. Whether a field is in its stated range is not asked here: the form gate answers that (R150). -/

namespace Sys2Proof

open Machine

/-- A number fits one byte. -/
def fits1 (n : Nat) : Bool := decide (n < 256)
/-- A number fits two bytes. -/
def fits2 (n : Nat) : Bool := decide (n < 65536)
/-- A number fits four bytes. -/
def fits4 (n : Nat) : Bool := decide (n < 4294967296)

def isMisshapen {α : Type} : Body α → Bool
  | .fields _ => false
  | .misshapen _ => true

/-- Fields fit their bytes; bytes that are not fields have a wrong length. -/
def Body.ok {α : Type} (fit : α → Bool) (shape : List Byte → Body α) : Body α → Bool
  | .fields f => fit f
  | .misshapen bs => isMisshapen (shape bs)

def HelloFields.fit (f : HelloFields) : Bool := decide (f.name.length = 16)
def CreateRouteFields.fit (f : CreateRouteFields) : Bool :=
  fits1 f.inlet && fits2 f.label && fits1 f.rights && fits1 f.quota && fits1 f.notify
def OpenInletFields.fit (f : OpenInletFields) : Bool := fits1 f.inlet && fits1 f.lane && fits1 f.depth && fits1 f.wake
def CloseInletFields.fit (f : CloseInletFields) : Bool := fits1 f.inlet && fits1 f.mode
def SetInletFields.fit (f : SetInletFields) : Bool := fits1 f.inlet && fits1 f.depth && fits1 f.wake && fits1 f.lane
def SetLaneFields.fit (f : SetLaneFields) : Bool := fits1 f.lane && fits1 f.mode
def ReceiveFields.fit (f : ReceiveFields) : Bool := fits1 f.inlet && fits1 f.count
def SpecFields.fit (f : SpecFields) : Bool :=
  fits1 f.kind && fits1 f.slot && fits1 f.mode && fits1 f.rights && fits1 f.quota

/-- A reply inlet stands in a SEND exactly when MINT_REPLY is set (R62). -/
def replyFits (mint : Nat) : Option Nat → Bool
  | some n => decide (mint = 1) && fits1 n
  | none => decide (mint ≠ 1)

def SendFields.fit (f : SendFields) : Bool :=
  fits1 f.slot && fits1 f.ret && fits1 f.mint && replyFits f.mint f.replyInlet && fits1 f.specs.length
    && f.specs.all SpecFields.fit && fits2 f.bodyLength
def CreateWindowFields.fit (f : CreateWindowFields) : Bool := fits4 f.base && fits4 f.limit && fits1 f.share
def StreamOpenFields.fit (f : StreamOpenFields) : Bool := fits1 f.slot && fits1 f.direction && fits1 f.order
def SetPortFields.fit (f : SetPortFields) : Bool :=
  fits1 f.port && fits1 f.timeout && fits1 f.retryLimit && fits1 f.atnMode && fits4 f.base && fits4 f.length
def SetReserveFields.fit (f : SetReserveFields) : Bool := fits2 f.cells && fits1 f.descriptors

/-- The fields of a command fit the bytes of its frame. -/
def Instr.fieldsFit : Instr → Bool
  | .hello _ _ b => b.ok HelloFields.fit shapeHello
  | .createRoute _ _ b => b.ok CreateRouteFields.fit shapeCreateRoute
  | .dropRoute _ _ b | .revokeFamily _ _ b | .routeInfo _ _ b | .inletStatus _ _ b | .closeWindow _ _ b
  | .dropGrant _ _ b | .evict _ _ b | .portStatus _ _ b => b.ok fits1 shapeByte
  | .openInlet _ _ b => b.ok OpenInletFields.fit shapeOpenInlet
  | .closeInlet _ _ b => b.ok CloseInletFields.fit shapeCloseInlet
  | .setInlet _ _ b => b.ok SetInletFields.fit shapeSetInlet
  | .setLane _ _ b => b.ok SetLaneFields.fit shapeSetLane
  | .receive _ _ b => b.ok ReceiveFields.fit shapeReceive
  | .send _ _ b => b.ok SendFields.fit shapeSend
  | .createWindow _ _ b => b.ok CreateWindowFields.fit shapeCreateWindow
  | .streamOpen _ _ b => b.ok StreamOpenFields.fit shapeStreamOpen
  | .streamRead _ _ b => b.ok fits2 shapeCount
  | .setPort _ _ b => b.ok SetPortFields.fit shapeSetPort
  | .setReserve _ _ b => b.ok SetReserveFields.fit shapeSetReserve
  | .unknownRequestKind _ _ k _ => (kindOf k).isNone
  | .bye _ _ _ | .dormant _ _ _ | .resume _ _ _ | .status _ _ _ | .streamData _ _ _ | .storeStatus _ _ _
  | .systemReset _ _ _ | .ack _ _ | .nak _ _ | .inboundFrameError _ _ | .transactionStart _ | .transactionEnd _
  | .frameShiftedOut _ | .timerExpiry _ | .atnPulseEnd _ | .deliveryChoice _ | .routeTableSweep _ | .grantTableSweep _
  | .inletTableSweep _ | .sweepCompletion _ | .powerOn | .resetPinAssert | .resetPinRelease | .startupCompletion _
  | .byteReceived _ _ => true

/-- A request's body fits a frame (R160). -/
def Instr.bodyFits (i : Instr) : Bool :=
  match requestBody i with
  | some bs => decide (bs.length ≤ Config.frameBodyMax)
  | none => true

/-- The commands a frame, a pin or an event can carry. -/
def Instr.wellFormed (i : Instr) : Bool := i.fieldsFit && i.bodyFits

end Sys2Proof
end

