-- ==== Sys2Proof/Safety.lean ====
section
/-! DEFINITION. The words the statements are written in: when a port takes a frame, what a well-made request is in numbers
(R150), how two states may differ by attention lines or by notices alone, and the laws of the part that every step keeps. -/

namespace Sys2Proof.Machine

/-! ### When a frame is taken -/

/-- An inbound frame at `p` is taken (R148, R156, R159): RSTN high, RUNNING, and no frame of the present transaction has
ended before it. -/
def State.takesFrames (s : State) (p : Port) : Prop :=
  s.rstnLow = false ∧ s.controller = .running ∧ ¬ (s.inTransaction p = true ∧ (s.ctl p).assembly = .spent)

/-- A request at `p` is handed to dispatch (R147, R169). -/
def State.takesRequests (s : State) (p : Port) : Prop := s.takesFrames p ∧ (s.ctl p).responses.length < 4

/-- A request other than HELLO at `p` passes the session gate (R151). -/
def State.serves (s : State) (p : Port) : Prop :=
  s.takesRequests p ∧ ((s.session p).state = .attached ∨ (s.session p).state = .dormant)

/-- A supervision request at `p` passes every gate (R152). -/
def State.supervised (s : State) (p : Port) : Prop := s.serves p ∧ p = 0 ∧ s.supervisor = true

/-- Assembly after an inbound frame has ended (R159): SPENT for the transaction under way. -/
def PortController.ended (c : PortController) : Assembly := if c.outbound.isSome then .spent else c.assembly

/-- The state with a REQUEST counted at `p` and its answer at the tail of the response queue (R153, R166, R168). -/
def State.answer (s : State) (p : Port) (tag kind : Byte) (status : Status) (result : Result) : State :=
  s.onCtl p fun c =>
    { c with
      assembly := c.ended
      responses := c.responses ++ [{ tag := tag, kind := kind, status := status, result := result }]
      counters := c.counters.addFrameIn }

/-- The state with a REQUEST counted at `p` and no answer given yet. -/
def State.noted (s : State) (p : Port) : State :=
  s.onCtl p fun c => { c with assembly := c.ended, counters := c.counters.addFrameIn }

/-- The state with a REQUEST counted at `p`, its stream closed (R140) and no answer given yet. -/
def State.taken (s : State) (p : Port) : State := (s.noted p).setStream p none

/-- The state with an answer at the tail of the response queue of `p` (R153, R168). -/
def State.replied (s : State) (p : Port) (tag kind : Byte) (status : Status) (result : Result) : State :=
  s.onCtl p fun c => { c with responses := c.responses ++ [{ tag := tag, kind := kind, status := status, result := result }] }

/-- What a SEND leaves at its slot and family once its enclosures are made (R78, R46): an ORDINARY copy is charged, a SINGLE one is
freed with its family. -/
def State.charged (s : State) (p : Port) (i : Fin 63) (r : RouteCopy) (x : Family) : State :=
  match x.kind with
  | .ordinary => s.setRoute p i (some { r with outstanding := r.outstanding + 1 })
  | .single =>
    (s.setRoute p i none).setFamily r.family (if x.copies ≤ 1 then none else some { x with copies := x.copies - 1 })

/-! ### How states may differ -/

/-- `t` is `u`, the attention line of `p` apart. -/
def EqualButLine (p : Port) (u t : State) : Prop := t = u.onCtl p fun c => { c with atn := (t.ctl p).atn }

/-- A request at `p` is answered `st` without result fields, its port's stream closed, and changes nothing else (R140, R153). -/
def State.turnsAway (s : State) (p : Port) (tag kind : Byte) (st : Status) (i : Instr) : Prop :=
  ∃ t, exec i s = .next t ∧ EqualButLine p ((s.answer p tag kind st .none).setStream p none) t

/-- `t` is `u`, the attention lines apart. -/
def EqualButLines (u t : State) : Prop :=
  t = { u with columns := t.columns } ∧
    ∀ q, t.col q = { u.col q with port := { u.ctl q with atn := (t.ctl q).atn } }

/-- A column with messages `new` at the tail of inlet 0, and inlet 0's refused-full count, the notices-lost count, wake
pending and the attention line as given. -/
def Column.noticed (c : Column) (new : List Descriptor) (refused lost : Nat) (wake : Bool) (atn : Atn) : Column :=
  { c with
    session := { c.session with lost := lost, wakePending := wake }
    inlets := c.inlets.put 0
      { c.inlets.get 0 with queue := (c.inlets.get 0).queue ++ new, refusedFull := refused }
    port := { c.port with atn := atn } }

/-- `t` is `u`, the effects of notices and the attention lines apart (R14 to R17, R24, R30): messages from the controller at
the tail of inlet 0 of some agents, their notices-lost counts, wake pending and inlet 0's refused-full count, and the store's
counts of free descriptors and cells, its next message number and its total of lost notices. -/
structure NoticesApart (u t : State) : Prop where
  rest : t = { u with columns := t.columns, store := t.store }
  store : t.store.refused = u.store.refused ∧ t.store.nextSerial = u.store.nextSerial
  columns : ∀ q, ∃ (new : List Descriptor) (refused lost : Nat) (wake : Bool) (atn : Atn),
    (∀ d ∈ new, d.sender = .controller) ∧ t.col q = (u.col q).noticed new refused lost wake atn

/-- `t` is `v`, the attention lines apart; where no notice is called for, the line of `p` alone. A notice may wake another
agent, whose line then follows (R24, R172). -/
def LinesApart (p : Port) (calls : List NoticeCall) (v t : State) : Prop :=
  EqualButLines v t ∧ (calls = [] → EqualButLine p v t)

/-! ### Copies and grants that cease -/

/-- A family with one copy fewer, FREE when none is left (R45, R46). -/
def Family.lowered (x : Family) : Option Family := if x.copies ≤ 1 then none else some { x with copies := x.copies - 1 }

/-- A window with one grant fewer, FREE when none is left (R130). -/
def Window.lowered (x : Window) : Option Window := if x.grants ≤ 1 then none else some { x with grants := x.grants - 1 }

/-- A notice called for to a family's creator under its creator generation (R16). -/
def Family.call (x : Family) (n : Notice) : NoticeCall := { port := x.creator, generation := x.generation, notice := n }

/-- The notices called for when a copy of family `f`, standing as `x`, ceases: ROUTE_DROPPED of an ACTIVE family that notifies
DROPPED (R47), and after it FAMILY_EMPTY when it was the last copy of an ACTIVE ORDINARY family (R46). -/
def Family.endCalls (x : Family) (f : Fin 256) (holder : Port) (reason : RouteDropReason) : List NoticeCall :=
  (if x.state = .active ∧ x.notify.dropped = true then [x.call (.routeDropped f holder reason)] else []) ++
    if x.copies ≤ 1 ∧ x.state = .active ∧ x.kind = .ordinary then [x.call (.familyEmpty f)] else []

/-- An enclosure that holds a RESERVED slot (R5). -/
def Enclosure.isReserved : Enclosure → Bool
  | .route _ _ _ _ (.reserved _) | .grant _ _ _ (.reserved _) => true
  | .route _ _ _ _ .inTransit | .route _ _ _ _ (.dropped _) | .grant _ _ _ .inTransit | .grant _ _ _ (.dropped _) => false

/-- An enclosure IN_TRANSIT (R5). -/
def Enclosure.isInTransit : Enclosure → Bool
  | .route _ _ _ _ .inTransit | .grant _ _ _ .inTransit => true
  | .route _ _ _ _ (.reserved _) | .route _ _ _ _ (.dropped _) | .grant _ _ _ (.reserved _) | .grant _ _ _ (.dropped _) =>
    false

/-- The slot an enclosure holds at `p`, if it is RESERVED, made FREE (R99). -/
def State.slotFreed (s : State) (p : Port) : Enclosure → State
  | .route _ _ _ _ (.reserved i) => s.setRoute p i none
  | .grant _ _ _ (.reserved i) => s.setGrant p i none
  | .route _ _ _ _ .inTransit | .route _ _ _ _ (.dropped _) | .grant _ _ _ .inTransit | .grant _ _ _ (.dropped _) => s

/-- `CopiesEnd p reason which s es calls t`: of the enclosures `es` of a message at `p`, those that `which` names cease in
list order, which leads from `s` to `t` and calls for the notices `calls`. The RESERVED ones cease at abandonment (R99) and at
the engine's abort (R102), their slots freed; those IN_TRANSIT at the destruction of their message (R12 step 3). -/
inductive CopiesEnd (p : Port) (reason : RouteDropReason) (which : Enclosure → Bool) :
    State → List Enclosure → List NoticeCall → State → Prop
  | done (s : State) : CopiesEnd p reason which s [] [] s
  | route {s t : State} {f : Fin 256} {mode : EnclosureMode} {rights : RouteRights} {quota : Nat} {st : Settlement (Fin 63)}
      {x : Family} {es : List Enclosure} {calls : List NoticeCall} :
      which (.route f mode rights quota st) = true → s.family f = some x →
      CopiesEnd p reason which ((s.slotFreed p (.route f mode rights quota st)).setFamily f x.lowered) es calls t →
      CopiesEnd p reason which s (.route f mode rights quota st :: es) (x.endCalls f p reason ++ calls) t
  | grant {s t : State} {w : Fin 32} {mode : EnclosureMode} {rights : GrantRights} {st : Settlement (Fin 8)}
      {x : Window} {es : List Enclosure} {calls : List NoticeCall} :
      which (.grant w mode rights st) = true → s.window w = some x →
      CopiesEnd p reason which ((s.slotFreed p (.grant w mode rights st)).setWindow w x.lowered) es calls t →
      CopiesEnd p reason which s (.grant w mode rights st :: es) calls t
  | other {s t : State} {e : Enclosure} {es : List Enclosure} {calls : List NoticeCall} :
      which e = false → CopiesEnd p reason which s es calls t → CopiesEnd p reason which s (e :: es) calls t

/-- The message at the head of an inlet leaves it, `rest` staying behind; its descriptor and cells are free again, and the
decrement test is applied to its sender (R11; R12 steps 1 and 2). -/
def State.messageGone (s : State) (p : Port) (i : Fin 16) (d : Descriptor) (rest : List Descriptor) : State :=
  ((s.onInlet p i fun x => { x with queue := rest }).onStore fun x =>
    { x with freeDescriptors := x.freeDescriptors + 1, freeCells := x.freeCells + d.cells.length }).decrement d.sender

/-- A delivery of inlet `i` ends: the engine IDLE with its number kept, and a DRAINING inlet left empty CLOSED without credit
(R97, R100, R28). That the copies of timeout and retry limit stay is the model's choice (log 14). -/
def State.deliveryOver (s : State) (p : Port) (i : Fin 16) : State :=
  (s.onEngine p fun e => { e with state := .idle, current := none, frame := none, retries := 0, timer := none }).onInlet p i
    fun x => if x.state = .draining ∧ x.queue = [] then { x with state := .closed, credit := 0 } else x

/-- `Destroys p cause s ds t`: the messages `ds` of inlets of `p` are destroyed one after another, which leads from `s` to `t`.
Each leaves its queue and its storage returns, its sender's slot passes the decrement test, the copies still IN_TRANSIT in it
cease, and then its notices are created, UNDELIVERED last (R12, R27, R36). -/
inductive Destroys (p : Port) (cause : DestroyCause) : State → List (Fin 16 × Descriptor) → State → Prop
  | done (s : State) : Destroys p cause s [] s
  | next {s t u : State} {i : Fin 16} {d : Descriptor} {ds : List (Fin 16 × Descriptor)} {calls : List NoticeCall} :
      CopiesEnd p cause.route Enclosure.isInTransit
        (((s.onInlet p i fun x => { x with queue := x.queue.erase d }).onStore fun x =>
          { x with freeDescriptors := x.freeDescriptors + 1, freeCells := x.freeCells + d.cells.length }).decrement d.sender)
        d.enclosures calls u →
      Destroys p cause (u.notifyAll (calls ++ d.undelivered cause.loss)) ds t → Destroys p cause s ((i, d) :: ds) t

/-! ### Enclosures settled at the first offer, and installed at the acknowledgement -/

/-- `Settles p s es es' calls t`: at the first offer to `p` the enclosures `es` become `es'` in list order, which leads from `s`
to `t` and calls for the notices `calls` (R87, R88, R89). -/
inductive Settles (p : Port) : State → List Enclosure → List Enclosure → List NoticeCall → State → Prop
  | done (s : State) : Settles p s [] [] [] s
  | routeRevoked {s t : State} {f : Fin 256} {mode : EnclosureMode} {rights : RouteRights} {quota : Nat} {x : Family}
      {es es' : List Enclosure} {calls : List NoticeCall} :
      s.family f = some x → x.state = .revoked → Settles p (s.setFamily f x.lowered) es es' calls t →
      Settles p s (.route f mode rights quota .inTransit :: es) (.route f mode rights quota (.dropped .revoked) :: es') calls t
  | routeNoSlot {s t : State} {f : Fin 256} {mode : EnclosureMode} {rights : RouteRights} {quota : Nat} {x : Family}
      {es es' : List Enclosure} {calls : List NoticeCall} :
      s.family f = some x → x.state = .active → (∀ i, s.route p i ≠ none) →
      Settles p (s.setFamily f x.lowered) es es' calls t →
      Settles p s (.route f mode rights quota .inTransit :: es) (.route f mode rights quota (.dropped .noSlot) :: es')
        (x.endCalls f p .noSlot ++ calls) t
  | routeReserved {s t : State} {f : Fin 256} {mode : EnclosureMode} {rights : RouteRights} {quota : Nat} {x : Family}
      {i : Fin 63} {es es' : List Enclosure} {calls : List NoticeCall} :
      s.family f = some x → x.state = .active → s.route p i = none → (∀ j, j < i → s.route p j ≠ none) →
      Settles p (s.drawSerial.2.setRoute p i (some
        { state := .reserved, family := f, rights := rights, quota := quota, outstanding := 0, serial := s.drawSerial.1 }))
        es es' calls t →
      Settles p s (.route f mode rights quota .inTransit :: es) (.route f mode rights quota (.reserved i) :: es') calls t
  | grantRevoked {s t : State} {w : Fin 32} {mode : EnclosureMode} {rights : GrantRights} {x : Window}
      {es es' : List Enclosure} {calls : List NoticeCall} :
      s.window w = some x → x.state = .revoked → Settles p (s.setWindow w x.lowered) es es' calls t →
      Settles p s (.grant w mode rights .inTransit :: es) (.grant w mode rights (.dropped .revoked) :: es') calls t
  | grantNoSlot {s t : State} {w : Fin 32} {mode : EnclosureMode} {rights : GrantRights} {x : Window}
      {es es' : List Enclosure} {calls : List NoticeCall} :
      s.window w = some x → x.state = .opened → (∀ i, s.grant p i ≠ none) →
      Settles p (s.setWindow w x.lowered) es es' calls t →
      Settles p s (.grant w mode rights .inTransit :: es) (.grant w mode rights (.dropped .noSlot) :: es') calls t
  | grantReserved {s t : State} {w : Fin 32} {mode : EnclosureMode} {rights : GrantRights} {x : Window} {i : Fin 8}
      {es es' : List Enclosure} {calls : List NoticeCall} :
      s.window w = some x → x.state = .opened → s.grant p i = none → (∀ j, j < i → s.grant p j ≠ none) →
      Settles p (s.setGrant p i (some { state := .reserved, window := w, rights := rights })) es es' calls t →
      Settles p s (.grant w mode rights .inTransit :: es) (.grant w mode rights (.reserved i) :: es') calls t

/-- The notice an ACTIVE family is due when a copy of it is installed at `p` (R96, R47). -/
def Family.installCalls (x : Family) (f : Fin 256) (p : Port) (sender : Sender) (mode : EnclosureMode) : List NoticeCall :=
  match mode, sender with
  | .copy, _ => if x.notify.copied then [x.call (.routeCopied f p)] else []
  | .pass, .agent q _ _ _ => if x.notify.passed then [x.call (.routePassed f q p)] else []
  | .pass, .controller | .minted, _ => []

/-- `Installs p sender s es calls t`: at a matching ACK the RESERVED slots of a delivery to `p` are installed in list order, which
leads from `s` to `t` and calls for the notices `calls` (R42, R95, R96). -/
inductive Installs (p : Port) (sender : Sender) : State → List Enclosure → List NoticeCall → State → Prop
  | done (s : State) : Installs p sender s [] [] s
  | routeLive {s t : State} {f : Fin 256} {mode : EnclosureMode} {rights : RouteRights} {quota : Nat} {i : Fin 63} {x : Family}
      {r : RouteCopy} {es : List Enclosure} {calls : List NoticeCall} :
      s.family f = some x → x.state = .active → s.route p i = some r → r.state = .reserved →
      Installs p sender (s.setRoute p i (some { r with state := .live })) es calls t →
      Installs p sender s (.route f mode rights quota (.reserved i) :: es) (x.installCalls f p sender mode ++ calls) t
  | routeStale {s t : State} {f : Fin 256} {mode : EnclosureMode} {rights : RouteRights} {quota : Nat} {i : Fin 63} {x : Family}
      {r : RouteCopy} {es : List Enclosure} {calls : List NoticeCall} :
      s.family f = some x → x.state = .revoked → s.route p i = some r → r.state = .reserved →
      Installs p sender (s.setRoute p i (some { r with state := .stale })) es calls t →
      Installs p sender s (.route f mode rights quota (.reserved i) :: es) calls t
  | grantLive {s t : State} {w : Fin 32} {mode : EnclosureMode} {rights : GrantRights} {i : Fin 8} {x : Window} {g : Grant}
      {es : List Enclosure} {calls : List NoticeCall} :
      s.window w = some x → x.state = .opened → s.grant p i = some g → g.state = .reserved →
      Installs p sender (s.setGrant p i (some { g with state := .live })) es calls t →
      Installs p sender s (.grant w mode rights (.reserved i) :: es) calls t
  | grantStale {s t : State} {w : Fin 32} {mode : EnclosureMode} {rights : GrantRights} {i : Fin 8} {x : Window} {g : Grant}
      {es : List Enclosure} {calls : List NoticeCall} :
      s.window w = some x → x.state = .revoked → s.grant p i = some g → g.state = .reserved →
      Installs p sender (s.setGrant p i (some { g with state := .stale })) es calls t →
      Installs p sender s (.grant w mode rights (.reserved i) :: es) calls t
  | routeDropped {s t : State} {f : Fin 256} {mode : EnclosureMode} {rights : RouteRights} {quota : Nat} {why : DropReason}
      {es : List Enclosure} {calls : List NoticeCall} :
      Installs p sender s es calls t → Installs p sender s (.route f mode rights quota (.dropped why) :: es) calls t
  | grantDropped {s t : State} {w : Fin 32} {mode : EnclosureMode} {rights : GrantRights} {why : DropReason}
      {es : List Enclosure} {calls : List NoticeCall} :
      Installs p sender s es calls t → Installs p sender s (.grant w mode rights (.dropped why) :: es) calls t

/-! ### SEND -/

/-- The fields a frame carries for an enclosure spec (R62, R163). -/
def Spec.fields : Spec → SpecFields
  | .route i mode rights quota =>
    { kind := 0, slot := i.val + 1, mode := if mode = .pass then 1 else 0,
      rights := rights.copy.toNat + 2 * rights.pass.toNat, quota := quota }
  | .grant i mode rights =>
    { kind := 1, slot := i.val, mode := if mode = .pass then 1 else 0,
      rights := rights.read.toNat + 2 * rights.write.toNat, quota := 0 }

/-- A spec a SEND can name (R62, R63): its mode is COPY or PASS, and a requested quota is at most 32. -/
def Spec.admissible : Spec → Prop
  | .route _ mode _ quota => mode ≠ .minted ∧ quota ≤ 32
  | .grant _ mode _ => mode ≠ .minted

/-- The SEND through slot `i + 1` with RETURN, reply inlet, specs and body as given (R62); MINT_REPLY is set exactly when a
reply inlet is given (R63). -/
def sendCommand (p : Port) (tag : Byte) (i : Fin 63) (ret : Bool) (reply : Option (Fin 16)) (specs : List Spec)
    (body : List Byte) : Instr :=
  .send p tag (.fields
    { slot := i.val + 1, ret := ret.toNat, mint := reply.isSome.toNat, replyInlet := reply.map Fin.val,
      specs := specs.map Spec.fields, bodyLength := body.length, body := body })

/-- A route slot's rights hold the one its mode needs (R69 test 2). -/
def RouteRights.holds (r : RouteRights) (mode : EnclosureMode) : Prop :=
  mode = .copy ∧ r.copy = true ∨ mode = .pass ∧ r.pass = true

/-- `SpecVerdict s p sending earlier x v`: check 6 of one spec of a SEND through slot `sending`, after specs that named the
sources `earlier`, gives `v`: the status that refuses it, or none (R69, R70). -/
inductive SpecVerdict (s : State) (p : Port) (sending : Fin 63) (earlier : List Source) :
    Spec → Option Status → Prop
  | routeFree {i : Fin 63} {mode : EnclosureMode} {wish : RouteRights} {quota : Nat} :
      s.route p i = none → SpecVerdict s p sending earlier (.route i mode wish quota) (some .noRoute)
  | routeReserved {i : Fin 63} {mode : EnclosureMode} {wish : RouteRights} {quota : Nat} {r : RouteCopy} :
      s.route p i = some r → r.state = .reserved →
      SpecVerdict s p sending earlier (.route i mode wish quota) (some .badState)
  | routeStale {i : Fin 63} {mode : EnclosureMode} {wish : RouteRights} {quota : Nat} {r : RouteCopy} :
      s.route p i = some r → r.state = .stale →
      SpecVerdict s p sending earlier (.route i mode wish quota) (some .revoked)
  | routeNoRight {i : Fin 63} {mode : EnclosureMode} {wish : RouteRights} {quota : Nat} {r : RouteCopy} :
      s.route p i = some r → r.state = .live → ¬ r.rights.holds mode →
      SpecVerdict s p sending earlier (.route i mode wish quota) (some .noRight)
  | routeSending {i : Fin 63} {mode : EnclosureMode} {wish : RouteRights} {quota : Nat} {r : RouteCopy} :
      s.route p i = some r → r.state = .live → r.rights.holds mode → mode = .pass → i = sending →
      SpecVerdict s p sending earlier (.route i mode wish quota) (some .badEnclosure)
  | routeTwice {i : Fin 63} {mode : EnclosureMode} {wish : RouteRights} {quota : Nat} {r : RouteCopy} :
      s.route p i = some r → r.state = .live → r.rights.holds mode → Source.route i ∈ earlier →
      SpecVerdict s p sending earlier (.route i mode wish quota) (some .badEnclosure)
  | routePasses {i : Fin 63} {mode : EnclosureMode} {wish : RouteRights} {quota : Nat} {r : RouteCopy} :
      s.route p i = some r → r.state = .live → r.rights.holds mode → ¬ (mode = .pass ∧ i = sending) → Source.route i ∉ earlier →
      SpecVerdict s p sending earlier (.route i mode wish quota) none
  | grantFree {i : Fin 8} {mode : EnclosureMode} {wish : GrantRights} :
      s.grant p i = none → SpecVerdict s p sending earlier (.grant i mode wish) (some .noGrant)
  | grantReserved {i : Fin 8} {mode : EnclosureMode} {wish : GrantRights} {g : Grant} :
      s.grant p i = some g → g.state = .reserved → SpecVerdict s p sending earlier (.grant i mode wish) (some .badState)
  | grantStale {i : Fin 8} {mode : EnclosureMode} {wish : GrantRights} {g : Grant} :
      s.grant p i = some g → g.state = .stale → SpecVerdict s p sending earlier (.grant i mode wish) (some .revoked)
  | grantNoShare {i : Fin 8} {mode : EnclosureMode} {wish : GrantRights} {g : Grant} {w : Window} :
      s.grant p i = some g → g.state = .live → s.window g.window = some w → w.share = false →
      SpecVerdict s p sending earlier (.grant i mode wish) (some .noRight)
  | grantTwice {i : Fin 8} {mode : EnclosureMode} {wish : GrantRights} {g : Grant} {w : Window} :
      s.grant p i = some g → g.state = .live → s.window g.window = some w → w.share = true → Source.grant i ∈ earlier →
      SpecVerdict s p sending earlier (.grant i mode wish) (some .badEnclosure)
  | grantPasses {i : Fin 8} {mode : EnclosureMode} {wish : GrantRights} {g : Grant} {w : Window} :
      s.grant p i = some g → g.state = .live → s.window g.window = some w → w.share = true → Source.grant i ∉ earlier →
      SpecVerdict s p sending earlier (.grant i mode wish) none

/-- `SpecsVerdict s p sending earlier specs v`: check 6 of the specs one after another, each whole before the next (R69). -/
inductive SpecsVerdict (s : State) (p : Port) (sending : Fin 63) :
    List Source → List Spec → Option Status → Prop
  | passed (earlier : List Source) : SpecsVerdict s p sending earlier [] none
  | refused {earlier : List Source} {x : Spec} {xs : List Spec} {st : Status} :
      SpecVerdict s p sending earlier x (some st) → SpecsVerdict s p sending earlier (x :: xs) (some st)
  | next {earlier : List Source} {x : Spec} {xs : List Spec} {v : Option Status} :
      SpecVerdict s p sending earlier x none → SpecsVerdict s p sending (x.source :: earlier) xs v →
      SpecsVerdict s p sending earlier (x :: xs) v

/-- Check 7 passes (R71): no reply inlet, or one other than 0, OPEN, and a FREE family. -/
def State.replyPasses (s : State) (p : Port) (reply : Option (Fin 16)) : Prop :=
  ∀ n, reply = some n → n ≠ 0 ∧ (s.inlet p n).state = .opened ∧ ∃ f, s.family f = none

/-- Check 8 passes for a body of `n` bytes into a lane (R72, R2, R8). -/
def State.storeTakes (s : State) (lane : Fin 4) (n : Nat) : Prop :=
  1 ≤ s.store.freeDescriptors ∧ (n + 31) / 32 ≤ s.store.freeCells ∧
    (lane = 0 ∨ (s.config.reserveCells + (n + 31) / 32 ≤ s.store.freeCells ∧
      s.config.reserveDescriptors + 1 ≤ s.store.freeDescriptors))

/-- `Encloses p s specs es t`: the admitted specs become the enclosures `es`, IN_TRANSIT and in their order, which leads from
`s` to `t`. Rights and quota are narrowed (R74); COPY raises the count and leaves the source (R75), PASS frees the source and
leaves the count (R76). -/
inductive Encloses (p : Port) : State → List Spec → List Enclosure → State → Prop
  | done (s : State) : Encloses p s [] [] s
  | routeCopy {s t : State} {i : Fin 63} {wish : RouteRights} {quota : Nat} {r : RouteCopy} {x : Family} {xs : List Spec}
      {es : List Enclosure} :
      s.route p i = some r → s.family r.family = some x →
      Encloses p (s.setFamily r.family (some { x with copies := x.copies + 1 })) xs es t →
      Encloses p s (.route i .copy wish quota :: xs)
        (.route r.family .copy
          { copy := wish.copy && r.rights.copy && x.rights.copy, pass := wish.pass && r.rights.pass && x.rights.pass }
          (if quota = 0 then min r.quota x.quota else min quota (min r.quota x.quota)) .inTransit :: es) t
  | routePass {s t : State} {i : Fin 63} {wish : RouteRights} {quota : Nat} {r : RouteCopy} {x : Family} {xs : List Spec}
      {es : List Enclosure} :
      s.route p i = some r → s.family r.family = some x → Encloses p (s.setRoute p i none) xs es t →
      Encloses p s (.route i .pass wish quota :: xs)
        (.route r.family .pass
          { copy := wish.copy && r.rights.copy && x.rights.copy, pass := wish.pass && r.rights.pass && x.rights.pass }
          (if quota = 0 then min r.quota x.quota else min quota (min r.quota x.quota)) .inTransit :: es) t
  | grantCopy {s t : State} {i : Fin 8} {wish : GrantRights} {g : Grant} {w : Window} {xs : List Spec} {es : List Enclosure} :
      s.grant p i = some g → s.window g.window = some w →
      Encloses p (s.setWindow g.window (some { w with grants := w.grants + 1 })) xs es t →
      Encloses p s (.grant i .copy wish :: xs)
        (.grant g.window .copy { read := wish.read && g.rights.read, write := wish.write && g.rights.write } .inTransit :: es) t
  | grantPass {s t : State} {i : Fin 8} {wish : GrantRights} {g : Grant} {xs : List Spec} {es : List Enclosure} :
      s.grant p i = some g → Encloses p (s.setGrant p i none) xs es t →
      Encloses p s (.grant i .pass wish :: xs)
        (.grant g.window .pass { read := wish.read && g.rights.read, write := wish.write && g.rights.write } .inTransit :: es) t

/-- `Mints p number s reply minted t`: with a reply inlet the lowest FREE family becomes a SINGLE one of `p` into it, labelled
with the message number (R56, R77); without one nothing is minted. -/
inductive Mints (p : Port) (number : Nat) (s : State) : Option (Fin 16) → Option (Fin 256) → State → Prop
  | nothing : Mints p number s none none s
  | minted {n : Fin 16} {f : Fin 256} :
      s.family f = none → (∀ g, g < f → s.family g ≠ none) →
      Mints p number s (some n) (some f) (s.setFamily f (some
        { state := .active, kind := .single, creator := p, generation := (s.session p).generation, targetInlet := n,
          label := number, rights := { copy := false, pass := true }, quota := 1,
          notify := { copied := false, passed := false, dropped := false }, copies := 1 }))

/-- The enclosure of a minted reply route (R77). -/
def replyEnclosure (minted : Option (Fin 256)) : List Enclosure :=
  (minted.map fun f => .route f .minted { copy := false, pass := true } 1 .inTransit).toList

/-! ### Requests -/

/-- The kind of a command that is one of the 28 requests. -/
def requestKind : Instr → Option RequestKind
  | .hello _ _ _ => some .hello
  | .bye _ _ _ => some .bye
  | .dormant _ _ _ => some .dormant
  | .resume _ _ _ => some .resume
  | .status _ _ _ => some .status
  | .createRoute _ _ _ => some .createRoute
  | .dropRoute _ _ _ => some .dropRoute
  | .revokeFamily _ _ _ => some .revokeFamily
  | .routeInfo _ _ _ => some .routeInfo
  | .openInlet _ _ _ => some .openInlet
  | .closeInlet _ _ _ => some .closeInlet
  | .setInlet _ _ _ => some .setInlet
  | .setLane _ _ _ => some .setLane
  | .receive _ _ _ => some .receive
  | .inletStatus _ _ _ => some .inletStatus
  | .send _ _ _ => some .send
  | .createWindow _ _ _ => some .createWindow
  | .closeWindow _ _ _ => some .closeWindow
  | .dropGrant _ _ _ => some .dropGrant
  | .streamOpen _ _ _ => some .streamOpen
  | .streamData _ _ _ => some .streamData
  | .streamRead _ _ _ => some .streamRead
  | .evict _ _ _ => some .evict
  | .setPort _ _ _ => some .setPort
  | .setReserve _ _ _ => some .setReserve
  | .portStatus _ _ _ => some .portStatus
  | .storeStatus _ _ _ => some .storeStatus
  | .systemReset _ _ _ => some .systemReset
  | .unknownRequestKind _ _ _ _ | .ack _ _ | .nak _ _ | .inboundFrameError _ _ | .transactionStart _
  | .transactionEnd _ | .frameShiftedOut _ | .timerExpiry _ | .atnPulseEnd _ | .deliveryChoice _ | .routeTableSweep _
  | .grantTableSweep _ | .inletTableSweep _ | .sweepCompletion _ | .powerOn | .resetPinAssert | .resetPinRelease
  | .startupCompletion _ | .byteReceived _ _ => none

/-- The port at which a command happens; the commands of the whole part have none. -/
def commandPort : Instr → Option Port
  | .ack p _ | .nak p _ | .inboundFrameError p _ | .transactionStart p | .transactionEnd p | .frameShiftedOut p
  | .timerExpiry p | .atnPulseEnd p | .deliveryChoice p | .routeTableSweep p | .grantTableSweep p | .inletTableSweep p
  | .sweepCompletion p | .byteReceived p _ => some p
  | .powerOn | .resetPinAssert | .resetPinRelease | .startupCompletion _ => none
  | i => (requestHeader i).map (·.1)

end Sys2Proof.Machine

namespace Sys2Proof

/-- A body of fields that satisfy `good`. -/
def Body.good {α : Type} (good : α → Bool) : Body α → Bool
  | .fields f => good f
  | .misshapen _ => false

/-- A number lies in a range. -/
def within (lo hi n : Nat) : Bool := decide (lo ≤ n) && decide (n ≤ hi)

/-- An enclosure spec in range (R62): a ROUTE spec names slot 1 to 63 and a quota of 0 to 32, a GRANT spec slot 0 to 7 and
quota 0. -/
def SpecFields.good (f : SpecFields) : Bool :=
  (decide (f.kind = 0) && within 1 63 f.slot && within 0 1 f.mode && within 0 3 f.rights && within 0 32 f.quota)
    || (decide (f.kind = 1) && within 0 7 f.slot && within 0 1 f.mode && within 0 3 f.rights && decide (f.quota = 0))

/-- A SEND in range (R62, R63). -/
def SendFields.good (f : SendFields) : Bool :=
  within 1 63 f.slot && within 0 1 f.ret
    && (match f.replyInlet with
        | some n => decide (f.mint = 1) && within 0 15 n
        | none => decide (f.mint = 0))
    && f.specs.all SpecFields.good && within 0 2 (f.specs.length + f.mint)
    && within 0 512 f.body.length && decide (f.bodyLength = f.body.length)

/-- A request is well made (R150): its body has its length, every field is in its range, and the conditions that tie one
field to another hold. A command that is no request is not. -/
def Instr.wellMade : Instr → Bool
  | .hello _ _ b => b.good fun f => decide (f.name.length = 16)
  | .bye _ _ b | .dormant _ _ b | .resume _ _ b | .status _ _ b | .storeStatus _ _ b | .systemReset _ _ b =>
    decide (b = [])
  | .createRoute _ _ b => b.good fun f =>
    within 0 15 f.inlet && within 0 65535 f.label && within 0 3 f.rights && within 1 32 f.quota && within 0 7 f.notify
  | .dropRoute _ _ b | .routeInfo _ _ b => b.good (within 1 63)
  | .revokeFamily _ _ b => b.good (within 0 255)
  | .openInlet _ _ b => b.good fun f =>
    within 0 15 f.inlet && within 0 3 f.lane && within 0 64 f.depth && within 0 1 f.wake
  | .closeInlet _ _ b => b.good fun f => within 0 15 f.inlet && within 0 1 f.mode
  | .setInlet _ _ b => b.good fun f =>
    within 0 15 f.inlet && within 1 64 f.depth && within 0 1 f.wake && within 0 3 f.lane
  | .setLane _ _ b => b.good fun f => within 0 3 f.lane && within 0 1 f.mode
  | .receive _ _ b => b.good fun f => within 0 15 f.inlet && within 1 16 f.count
  | .inletStatus _ _ b => b.good (within 0 15)
  | .send _ _ b => b.good SendFields.good
  | .createWindow _ _ b => b.good fun f =>
    within 0 262143 f.base && within 0 262143 f.limit && decide (f.base ≤ f.limit) && within 0 1 f.share
  | .closeWindow _ _ b | .dropGrant _ _ b => b.good (within 0 7)
  | .streamOpen _ _ b => b.good fun f => within 0 7 f.slot && within 0 1 f.direction && within 0 1 f.order
  | .streamData _ _ b => within 1 512 b.length
  | .streamRead _ _ b => b.good (within 1 512)
  | .evict _ _ b => b.good (within 1 7)
  | .setPort _ _ b => b.good fun f =>
    within 0 7 f.port && within 1 255 f.timeout && within 0 7 f.retryLimit && within 0 1 f.atnMode
      && within 0 262143 f.base && within 0 262144 f.length && decide (f.base + f.length ≤ 262144)
  | .setReserve _ _ b => b.good fun f => within 0 512 f.cells && within 0 64 f.descriptors
  | .portStatus _ _ b => b.good (within 0 7)
  | .unknownRequestKind _ _ _ _ | .ack _ _ | .nak _ _ | .inboundFrameError _ _ | .transactionStart _
  | .transactionEnd _ | .frameShiftedOut _ | .timerExpiry _ | .atnPulseEnd _ | .deliveryChoice _ | .routeTableSweep _
  | .grantTableSweep _ | .inletTableSweep _ | .sweepCompletion _ | .powerOn | .resetPinAssert | .resetPinRelease
  | .startupCompletion _ | .byteReceived _ _ => false

end Sys2Proof

namespace Sys2Proof.Machine

/-! ### Revocation and withdrawal -/

/-- Every ACTIVE family that `pick` names REVOKED, and every LIVE slot that names one of them, of every agent, STALE (R52). -/
def State.familiesRevoked (s : State) (pick : Family → Bool) : State :=
  { s with
    families := s.families.map fun slot => slot.map fun x =>
      if x.state = .active ∧ pick x = true then { x with state := .revoked } else x
    columns := s.columns.map fun c =>
      { c with routes := c.routes.map fun slot => slot.map fun r =>
          if r.state = .live ∧ (s.family r.family).any (fun x => decide (x.state = .active) && pick x) = true
          then { r with state := .stale } else r } }

/-- Every OPEN window that `pick` names REVOKED, every LIVE grant slot that names one of them STALE, and every stream open
over one of them BROKEN, at every port (R135). -/
def State.windowsRevoked (s : State) (pick : Window → Bool) : State :=
  let picked := fun w : Fin 32 => (s.window w).any fun x => decide (x.state = .opened) && pick x
  { s with
    windows := s.windows.map fun slot => slot.map fun x =>
      if x.state = .opened ∧ pick x = true then { x with state := .revoked } else x
    columns := s.columns.map fun c =>
      { c with
        grants := c.grants.map fun slot => slot.map fun g =>
          if g.state = .live ∧ picked g.window = true then { g with state := .stale } else g
        stream := c.stream.map fun x =>
          if x.state ≠ .broken ∧ picked x.window = true then { x with state := .broken } else x } }

/-- Steps 1 to 3 of the start of a withdrawal of `p` (R118): the session, its families (R59), its windows (R145). -/
def State.cutOff (s : State) (p : Port) (hello : Option HeldHello) (bye : Option Byte) : State :=
  ((s.onSession p fun x =>
      { x with state := .withdrawing, heldHello := hello, heldBye := bye, heldAnswers := [], wakePending := false, lost := 0,
               sweep := some { routeTable := true, grantTable := true, inletTable := true } }).familiesRevoked
    fun x => decide (x.creator = p ∧ x.generation = (s.session p).generation)).windowsRevoked
    fun x => decide (x.owner = p ∧ x.generation = (s.session p).generation)

/-- `Aborts p s t`: the abort of the engine of `p` leads from `s` to `t` (R102): an IDLE engine is left; otherwise every RESERVED
slot of the current message is freed and the notices called for are created, the message is QUEUED again at the head of its
queue, and the engine is IDLE. -/
inductive Aborts (p : Port) (s : State) : State → Prop
  | idle : (s.engine p).state = .idle → Aborts p s s
  | busy {u : State} {i : Fin 16} {d : Descriptor} {rest : List Descriptor} {calls : List NoticeCall} :
      (s.engine p).state ≠ .idle → (s.engine p).current = some i → (s.inlet p i).queue = d :: rest →
      CopiesEnd p .withdrawn Enclosure.isReserved s d.enclosures calls u →
      Aborts p s (((u.notifyAll calls).onInlet p i fun x =>
        { x with queue := x.queue.modifyHead fun d => { d with lifecycle := .queued } }).onEngine p fun e =>
        { e with state := .idle, current := none, frame := none, retries := 0, timer := none })

/-- The port's share of the start of a withdrawal (R119): the response queue emptied, a RESPONSE under way outbound a discarded
entry, the overrun count 0, the stream closed. -/
def State.portCleared (s : State) (p : Port) : State :=
  (s.onCtl p fun c =>
    { c with
      responses := []
      overrun := 0
      outbound := c.outbound.map fun o =>
        match o.carried with
        | .response _ => { o with carried := .discarded }
        | .idle | .deliver _ | .discarded => o }).setStream p none

/-- What the start of a withdrawal of `p` leaves (R118, R119, R59, R145, R102), from the state `s` in which the request that
starts it has been counted and its port's stream closed: all of it by `exact`, the parts by name besides. That
the engine's copies of timeout and retry limit stay is the model's choice (log 14). -/
structure WithdrawalStarted (s t : State) (p : Port) (hello : Option HeldHello) (bye : Option Byte) : Prop where
  session : t.session p =
    { s.session p with state := .withdrawing, heldHello := hello, heldBye := bye, heldAnswers := [], wakePending := false,
                       lost := 0, sweep := some { routeTable := true, grantTable := true, inletTable := true } }
  families : ∀ f x y, s.family f = some x → t.family f = some y →
    if x.state = .active ∧ x.creator = p ∧ x.generation = (s.session p).generation
    then y = { x with state := .revoked, copies := y.copies } else y = { x with copies := y.copies }
  windows : ∀ w x y, s.window w = some x → t.window w = some y →
    if x.state = .opened ∧ x.owner = p ∧ x.generation = (s.session p).generation
    then y = { x with state := .revoked, grants := y.grants } else y = { x with grants := y.grants }
  engine : t.engine p =
    if (s.engine p).state = .idle then s.engine p
    else { s.engine p with state := .idle, current := none, frame := none, retries := 0, timer := none }
  queue : (t.ctl p).responses = []
  overrun : (t.ctl p).overrun = 0
  stream : t.stream p = none
  others : ∀ q, q ≠ p → (t.session q).state = (s.session q).state ∧ (t.session q).generation = (s.session q).generation ∧
    t.engine q = s.engine q ∧ (t.ctl q).outbound = (s.ctl q).outbound
  part : t.controller = s.controller ∧ t.supervisor = s.supervisor ∧ t.config = s.config ∧ t.bulk = s.bulk
  exact : ∀ u, Aborts p (s.cutOff p hello bye) u → EqualButLines (u.portCleared p) t

/-! ### Laws that every step keeps -/

/-- No response queue ever holds more than 4 responses (R168). -/
def State.queuesBounded (s : State) : Prop := ∀ p, (s.ctl p).responses.length ≤ 4

/-- Bulk memory has its one canonical form. -/
def State.memoryCanonical (s : State) : Prop := Memory.wf s.bulk = true

/-- The attention line of a port as its mode and its session put it (R117, R172). -/
def State.lineLaw (s : State) (p : Port) : Prop :=
  if s.rstnLow = true ∨ s.controller = .starting then (s.ctl p).atn = .released
  else
    match (s.session p).state with
    | .vacant => (s.ctl p).atn = .released
    | .dormant => (s.ctl p).atn = if (s.session p).wakePending then .asserted else .released
    | .attached | .withdrawing =>
      match (s.settings p).atnMode with
      | .level => (s.ctl p).atn = if (s.col p).waiting then .asserted else .released
      | .pulse => (s.ctl p).atn ≠ .asserted

def State.linesLawful (s : State) : Prop := ∀ p, s.lineLaw p

/-- The waiting set of a port is non-empty (R172): a response in its queue, or a PRESENTED delivery. -/
def State.waits (s : State) (p : Port) : Prop := (s.ctl p).responses ≠ [] ∨ (s.engine p).state = .presented

/-- The engine law (R82, R83, R92): IDLE has no message, frame, retry or timer; PRESENTED has a message and a frame; SENT has
both and a running timer. -/
def EngineLaw (e : Engine) : Prop :=
  match e.state with
  | .idle => e.current = none ∧ e.frame = none ∧ e.retries = 0 ∧ e.timer = none
  | .presented => e.current ≠ none ∧ e.frame ≠ none ∧ e.timer = none
  | .sent => e.current ≠ none ∧ e.frame ≠ none ∧ e.timer ≠ none

/-- The inlet laws (R19, R20, R21): a queue within its depth limit; a CLOSED inlet empty and without credit; inlet 0 OPEN
while its agent is ATTACHED or DORMANT. -/
structure InletLaw (s : State) : Prop where
  depth : ∀ p i, (s.inlet p i).queue.length ≤ (s.inlet p i).depth
  closed : ∀ p i, (s.inlet p i).state = .closed → (s.inlet p i).queue = [] ∧ (s.inlet p i).credit = 0
  notices : ∀ p, (s.session p).state = .attached ∨ (s.session p).state = .dormant → (s.inlet p 0).state = .opened

end Sys2Proof.Machine
end

