-- ==== Sys2Proof/Certificates/Slice0/Obligations.lean ====
section
/-! DEFINITION. The statements for the provers. An expected state is written out from the rules as the old state with named
records changed; `EqualButLine p u t` then says that the command left exactly that state, the attention line of `p` apart,
whose law is stated for every line at once (`LinesStayLawful`). Frames are stated for every state in which the port takes them;
that a frame command is also taken with no transaction under way is the model's choice (log 4). -/

open Sys2Proof Sys2Proof.Machine

/-- The command at the front of the queue is run on the state with the queue's rest (the form of a block; log 1). -/
def Obligations.StepRunsTheFrontCommand : Prop :=
  ∀ (c : Instr) (rest : List Instr) (s : State),
    step { s with pending := c :: rest } = exec c { s with pending := rest }

/-! ### Sessions -/

/-- R109, R108, R21, R111: a HELLO on a VACANT port begins a session with the next generation and opens inlet 0; on a
WITHDRAWING port the first HELLO is held and a second is answered BUSY. -/
def Obligations.HelloBeginsOrIsHeld : Prop :=
  ∀ (s : State) (p : Port) (tag c : Byte) (name : List Byte), s.takesRequests p → name.length = 16 →
    let cmd : Instr := .hello p tag (.fields { agentClass := c, name := name })
    let generation := if (s.session p).generation < 255 then (s.session p).generation + 1 else 1
    ((s.session p).state = .vacant →
      ∃ t, exec cmd s = .next t ∧
        EqualButLine p
          ((((s.answer p tag 0x01 .ok (.hello p generation (decide (p = 0) && s.supervisor))).setStream p none).onSession
            p fun x => { x with state := .attached, generation := generation, agentClass := c, name := name,
                                wakePending := false, lost := 0 }).onCol p fun x =>
            { x with
              inlets := x.inlets.put 0 { state := .opened, lane := 0, depth := 16, wake := true, queue := [],
                                         credit := 0, refusedFull := 0 }
              lanes := Tab.all 4 { mode := .push, lastServed := 15 } }) t) ∧
    ((s.session p).state = .withdrawing →
      ∃ t, exec cmd s = .next t ∧
        EqualButLine p
          (if (s.session p).heldHello = none then
            ((s.noted p).setStream p none).onSession p fun x =>
              { x with heldHello := some { tag := tag, agentClass := c, name := name } }
           else (s.answer p tag 0x01 .busy .none).setStream p none) t)

/-- R110, R112, R118, R119, R59, R145, R102: a HELLO or a BYE on an ATTACHED or DORMANT port starts the withdrawal and is held,
its answer not queued; the request is counted and its frame has ended. The engine's copies of timeout and retry limit stay by
the model's choice (log 14). -/
def Obligations.HelloAndByeStartAWithdrawal : Prop :=
  ∀ (s : State) (p : Port) (tag c : Byte) (name : List Byte), s.serves p → name.length = 16 →
    (∃ t, exec (.hello p tag (.fields { agentClass := c, name := name })) s = .next t ∧
      WithdrawalStarted (s.taken p) t p (some { tag := tag, agentClass := c, name := name }) none ∧
      (t.ctl p).counters = (s.ctl p).counters.addFrameIn ∧ (t.ctl p).assembly = (s.ctl p).ended) ∧
    (∃ t, exec (.bye p tag []) s = .next t ∧ WithdrawalStarted (s.taken p) t p none (some tag) ∧
      (t.ctl p).counters = (s.ctl p).counters.addFrameIn ∧ (t.ctl p).assembly = (s.ctl p).ended)

/-- R113, R114: the DORMANT request and RESUME, in each state they find. -/
def Obligations.DormantAndResume : Prop :=
  ∀ (s : State) (p : Port) (tag : Byte), s.serves p →
    (∃ t, exec (.dormant p tag []) s = .next t ∧
      EqualButLine p
        (if (s.session p).state = .dormant then (s.answer p tag 0x03 .already .none).setStream p none
         else if (s.engine p).state = .idle then
           ((s.answer p tag 0x03 .ok .none).setStream p none).onSession p fun x =>
             { x with state := .dormant, wakePending := false }
         else (s.answer p tag 0x03 .busy .none).setStream p none) t) ∧
    (∃ t, exec (.resume p tag []) s = .next t ∧
      EqualButLine p
        (if (s.session p).state = .dormant then
           ((s.answer p tag 0x04 .ok .none).setStream p none).onSession p fun x =>
             { x with state := .attached, wakePending := false }
         else (s.answer p tag 0x04 .already .none).setStream p none) t)

/-! ### Inspection -/

/-- R115, R31, R51: STATUS, INLET_STATUS and ROUTE_INFO report what they find and change nothing but the stream; a FREE slot is
answered NO_ROUTE. -/
def Obligations.InspectionsReport : Prop :=
  ∀ (s : State) (p : Port) (tag : Byte), s.serves p →
    (∃ t, exec (.status p tag []) s = .next t ∧
      EqualButLine p ((s.answer p tag 0x05 .ok (.status
        { port := p, controller := .running, session := (s.session p).state, generation := (s.session p).generation,
          supervisor := decide (p = 0) && s.supervisor, wakePending := (s.session p).wakePending,
          lost := (s.session p).lost, delivery := (s.engine p).state, number := (s.engine p).number })).setStream p none)
        t) ∧
    (∀ i : Fin 16, ∃ t, exec (.inletStatus p tag (.fields i.val)) s = .next t ∧
      EqualButLine p ((s.answer p tag 0x0F .ok (.inletStatus
        { inlet := i, state := (s.inlet p i).state, lane := (s.inlet p i).lane,
          mode := (s.lane p (s.inlet p i).lane).mode, depth := (s.inlet p i).depth, wake := (s.inlet p i).wake,
          length := (s.inlet p i).queue.length,
          headInDelivery := decide ((s.inlet p i).queue.head?.map Descriptor.lifecycle = some .inDelivery),
          headNumber := ((s.inlet p i).queue.head?.map Descriptor.messageNumber).getD 0,
          credit := (s.inlet p i).credit, refusedFull := (s.inlet p i).refusedFull })).setStream p none) t) ∧
    (∀ i : Fin 63, s.route p i = none → s.turnsAway p tag 0x09 .noRoute (.routeInfo p tag (.fields (i.val + 1)))) ∧
    (∀ (i : Fin 63) (r : RouteCopy) (x : Family), s.route p i = some r → s.family r.family = some x →
      ∃ t, exec (.routeInfo p tag (.fields (i.val + 1))) s = .next t ∧
        EqualButLine p ((s.answer p tag 0x09 .ok (.routeInfo
          { slot := i, state := r.state, family := r.family, rights := r.rights, quota := r.quota,
            outstanding := r.outstanding, serial := r.serial, familyState := x.state, kind := x.kind, label := x.label,
            targetPort := x.creator, targetInlet := x.targetInlet })).setStream p none) t)

/-- R182, R183: PORT_STATUS and STORE_STATUS report what they find and change nothing but the stream of port 0. -/
def Obligations.SupervisorInspections : Prop :=
  ∀ (s : State) (p : Port) (tag : Byte), s.supervised p →
    (∀ q : Port, ∃ t, exec (.portStatus p tag (.fields q.val)) s = .next t ∧
      EqualButLine p ((s.answer p tag 0x1A .ok (.portStatus
        { port := q, session := (s.session q).state, generation := (s.session q).generation,
          agentClass := (s.session q).agentClass, name := (s.session q).name, wakePending := (s.session q).wakePending,
          lost := (s.session q).lost, helloHeld := (s.session q).heldHello.isSome,
          byeHeld := (s.session q).heldBye.isSome, delivery := (s.engine q).state, number := (s.engine q).number,
          stream := if q = p then none else (s.stream q).map Stream.state, waiting := (s.ctl q).responses.length,
          overrun := (s.ctl q).overrun, settings := s.settings q,
          counters := if q = p then (s.ctl q).counters.addFrameIn else (s.ctl q).counters })).setStream p none) t) ∧
    (∃ t, exec (.storeStatus p tag []) s = .next t ∧
      EqualButLine p ((s.answer p tag 0x1B .ok (.storeStatus
        { freeCells := s.store.freeCells, freeDescriptors := s.store.freeDescriptors,
          inUse := ((List.finRange 8).map fun q =>
            ((List.finRange 16).map fun i => (s.inlet q i).queue.length).sum).sum,
          reserveCells := s.config.reserveCells, reserveDescriptors := s.config.reserveDescriptors,
          nextMessage := s.store.nextMessage, nextSerial := s.store.nextSerial, refused := s.store.refused,
          lost := s.store.lost,
          freeFamilies := (List.finRange 256).countP fun f => (s.family f).isNone,
          freeWindows := (List.finRange 32).countP fun w => (s.window w).isNone })).setStream p none) t)

/-! ### Routes and families -/

/-- R49: CREATE_ROUTE, its four tests in their order, and then the lowest FREE family and the lowest FREE slot of the requester
taken. A request that is not well made is answered BAD_REQUEST. -/
def Obligations.CreateRouteMakesAFamily : Prop :=
  ∀ (s : State) (p : Port) (tag : Byte) (inlet : Fin 16) (label quota : Nat) (copy pass copied passed dropped : Bool),
    s.serves p → label ≤ 65535 → 1 ≤ quota → quota ≤ 32 →
    let cmd : Instr := .createRoute p tag (.fields
      { inlet := inlet.val, label := label, rights := copy.toNat + 2 * pass.toNat, quota := quota,
        notify := copied.toNat + 2 * passed.toNat + 4 * dropped.toNat })
    let serial := s.drawSerial.1
    let isOpen := inlet ≠ 0 ∧ (s.inlet p inlet).state = .opened
    (∀ b, (Instr.createRoute p tag b).wellMade = false → s.turnsAway p tag 0x06 .badRequest (.createRoute p tag b)) ∧
    (inlet = 0 → s.turnsAway p tag 0x06 .fixed cmd) ∧
    (inlet ≠ 0 → (s.inlet p inlet).state ≠ .opened → s.turnsAway p tag 0x06 .inletClosed cmd) ∧
    (isOpen → (∀ g, s.family g ≠ none) → s.turnsAway p tag 0x06 .noFamily cmd) ∧
    (isOpen → (∃ g, s.family g = none) → (∀ j, s.route p j ≠ none) → s.turnsAway p tag 0x06 .tableFull cmd) ∧
    (∀ (f : Fin 256) (i : Fin 63), isOpen → s.family f = none → (∀ g, g < f → s.family g ≠ none) → s.route p i = none →
      (∀ j, j < i → s.route p j ≠ none) → ∃ t, exec cmd s = .next t ∧ EqualButLine p
        (((((s.answer p tag 0x06 .ok (.createRoute i f serial)).setStream p none).onStore fun x =>
          { x with nextSerial := if serial < 65535 then serial + 1 else 1 }).setFamily f (some
            { state := .active, kind := .ordinary, creator := p, generation := (s.session p).generation,
              targetInlet := inlet, label := label, rights := { copy := copy, pass := pass }, quota := quota,
              notify := { copied := copied, passed := passed, dropped := dropped }, copies := 1 })).setRoute p i (some
            { state := .live, family := f, rights := { copy := copy, pass := pass }, quota := quota, outstanding := 0,
              serial := serial })) t)

/-- R50, R45, R46, R47: DROP_ROUTE of a LIVE or STALE slot frees it and lowers its family's copy count; a family without copies
is FREE. ROUTE_DROPPED, and FAMILY_EMPTY after it, are created exactly when they are called for. A FREE slot is answered
NO_ROUTE and a RESERVED one BAD_STATE. -/
def Obligations.DropRouteEndsACopy : Prop :=
  ∀ (s : State) (p : Port) (tag : Byte) (i : Fin 63), s.serves p →
    let cmd : Instr := .dropRoute p tag (.fields (i.val + 1))
    (s.route p i = none → s.turnsAway p tag 0x07 .noRoute cmd) ∧
    (∀ r, s.route p i = some r → r.state = .reserved → s.turnsAway p tag 0x07 .badState cmd) ∧
    (∀ (r : RouteCopy) (x : Family), s.route p i = some r → r.state ≠ .reserved → s.family r.family = some x →
      let calls := x.endCalls r.family p .dropped
      ∃ t, exec cmd s = .next t ∧
        LinesApart p calls
          (((((s.taken p).setRoute p i none).setFamily r.family
            (if x.copies ≤ 1 then none else some { x with copies := x.copies - 1 })).notifyAll calls).replied p tag 0x07 .ok
            (.dropRoute r.family (x.copies - 1))) t)

/-- R14 to R17, R165, R24, R30: what the notice generator makes of one call. Where the addressee's session has ended or is another
one, nothing at all; where a descriptor, a cell or a place in inlet 0 lacks, a loss, counted; otherwise one message of the
controller at the tail of inlet 0 with the notice's 16 bytes, carrying and clearing the addressee's notices-lost count. R12: an
UNDELIVERED notice is due to the sender of a message with RETURN. R15, R47: so DROP_ROUTE of a copy of an ACTIVE family that
notifies DROPPED reaches its creator. -/
def Obligations.DropRouteNotifiesTheCreator : Prop :=
  (∀ (s : State) (c : NoticeCall),
    let q := c.port
    let heard := ((s.session q).state = .attached ∨ (s.session q).state = .dormant) ∧
      (s.session q).generation = c.generation
    let room := 1 ≤ s.store.freeDescriptors ∧ 1 ≤ s.store.freeCells ∧ (s.inlet q 0).queue.length < (s.inlet q 0).depth
    let number := s.drawMessage.1
    let d : Descriptor :=
      { number := s.freeDescriptor, messageNumber := number, sender := .controller, targetPort := q, targetInlet := 0,
        ret := false, label := 0, lifecycle := .queued, enclosures := [], bodyLength := 16,
        cells := fillCells (s.freeCellNumbers 1) (c.notice.bytes (s.session q).lost) }
    (¬ heard → s.notify c = s) ∧
    (heard → ¬ room → s.notify c =
      ((s.onSession q fun x => { x with lost := if x.lost < 255 then x.lost + 1 else x.lost }).onStore fun x =>
        { x with lost := if x.lost < 65535 then x.lost + 1 else x.lost }).onInlet q 0 fun x =>
          if x.queue.length < x.depth then x
          else { x with refusedFull := if x.refusedFull < 65535 then x.refusedFull + 1 else x.refusedFull }) ∧
    (heard → room → d.body = c.notice.bytes (s.session q).lost ∧ s.notify c =
      ((s.onStore fun x =>
          { x with nextMessage := if number < 65535 then number + 1 else 1,
                   freeDescriptors := x.freeDescriptors - 1, freeCells := x.freeCells - 1 }).onInlet q 0 fun x =>
        { x with queue := x.queue ++ [d] }).onSession q fun x =>
          { x with
            lost := 0
            wakePending := if (s.session q).state = .dormant ∧ (s.inlet q 0).wake = true then true else x.wakePending })) ∧
  (∀ (lost n : Nat) (f : Fin 256) (q q' : Port) (i : Fin 16),
    (Notice.routeCopied f q).bytes lost = [0, byteOf lost, byteOf f.val, byteOf q.val, 0, 0, 0, 0, 0, 0, 0, 0, 0, 0, 0, 0] ∧
    (Notice.routePassed f q q').bytes lost =
      [1, byteOf lost, byteOf f.val, byteOf q'.val, byteOf q.val, 0, 0, 0, 0, 0, 0, 0, 0, 0, 0, 0] ∧
    (∀ why code, (why, code) ∈ [(RouteDropReason.dropped, 0), (.noSlot, 1), (.abandoned, 2), (.withdrawn, 3)] →
      (Notice.routeDropped f q why).bytes lost =
        [2, byteOf lost, byteOf f.val, byteOf q.val, 0, code, 0, 0, 0, 0, 0, 0, 0, 0, 0, 0]) ∧
    (Notice.familyEmpty f).bytes lost = [3, byteOf lost, byteOf f.val, 0, 0, 0, 0, 0, 0, 0, 0, 0, 0, 0, 0, 0] ∧
    (∀ why code, (why, code) ∈ [(LossReason.retryExhausted, 0), (.inletDiscarded, 1), (.targetWithdrawn, 2)] →
      (Notice.undelivered n q i why).bytes lost =
        [4, byteOf lost, 0, 0, 0, code, byteOf (n / 256), byteOf n, byteOf q.val, byteOf i.val, 0, 0, 0, 0, 0, 0])) ∧
  (∀ (d : Descriptor) (why : LossReason),
    (d.sender = .controller ∨ d.ret = false → d.undelivered why = []) ∧
    (∀ q generation i serial, d.sender = .agent q generation i serial → d.ret = true → d.undelivered why =
      [{ port := q, generation := generation,
         notice := .undelivered d.messageNumber d.targetPort d.targetInlet why }])) ∧
  (∀ (s : State) (p : Port) (tag : Byte) (i : Fin 63) (r : RouteCopy) (x : Family), s.serves p → s.route p i = some r →
    r.state ≠ .reserved → s.family r.family = some x → x.state = .active → x.notify.dropped = true → 1 < x.copies →
    ((s.session x.creator).state = .attached ∨ (s.session x.creator).state = .dormant) →
    (s.session x.creator).generation = x.generation → 1 ≤ s.store.freeDescriptors → 1 ≤ s.store.freeCells →
    (s.inlet x.creator 0).queue.length < (s.inlet x.creator 0).depth →
    ∃ t d, exec (.dropRoute p tag (.fields (i.val + 1))) s = .next t ∧
      (t.inlet x.creator 0).queue = (s.inlet x.creator 0).queue ++ [d] ∧ d.sender = .controller ∧ d.ret = false ∧
      d.label = 0 ∧ d.enclosures = [] ∧
      d.body = [2, byteOf (s.session x.creator).lost, byteOf r.family.val, byteOf p.val, 0, 0, 0, 0, 0, 0, 0, 0, 0, 0, 0, 0] ∧
      (t.session x.creator).lost = 0 ∧ t.store.freeDescriptors = s.store.freeDescriptors - 1 ∧
      t.store.freeCells = s.store.freeCells - 1)

/-- R53, R52: REVOKE_FAMILY, its three tests in their order; by the creator it makes an ACTIVE family REVOKED and every LIVE
slot that names it, of every agent, STALE, and nothing else changes. -/
def Obligations.RevokeFamilyStalesItsCopies : Prop :=
  ∀ (s : State) (p : Port) (tag : Byte) (f : Fin 256), s.serves p →
    let cmd : Instr := .revokeFamily p tag (.fields f.val)
    let mine := fun x : Family => x.creator = p ∧ x.generation = (s.session p).generation
    let stale := ((List.finRange 8).map fun q =>
      (List.finRange 63).countP fun i =>
        (s.route q i).any fun r => decide (r.state = .live) && decide (r.family = f)).sum
    (s.family f = none → s.turnsAway p tag 0x08 .badState cmd) ∧
    (∀ x, s.family f = some x → ¬ mine x → s.turnsAway p tag 0x08 .notPermitted cmd) ∧
    (∀ x, s.family f = some x → mine x → x.state = .revoked → s.turnsAway p tag 0x08 .already cmd) ∧
    (∀ x, s.family f = some x → mine x → x.state = .active →
      let u := (s.answer p tag 0x08 .ok (.revokeFamily stale x.copies)).setStream p none
      ∃ t, exec cmd s = .next t ∧
        t = { s with families := s.families.put f (some { x with state := .revoked }), columns := t.columns } ∧
        ∀ q, t.col q = { u.col q with
          routes := (s.col q).routes.map fun slot => slot.map fun r =>
            if r.state = .live ∧ r.family = f then { r with state := .stale } else r
          port := { u.ctl q with atn := (t.ctl q).atn } })

/-! ### Inlets and lanes -/

/-- R22: OPEN_INLET by the inlet named and its state; a depth of 0 asks for 8. Out of range it is answered BAD_REQUEST. -/
def Obligations.OpenInletByState : Prop :=
  ∀ (s : State) (p : Port) (tag : Byte) (i : Fin 16) (l : Fin 4) (depth : Nat) (wake : Bool), s.serves p → depth ≤ 64 →
    (∀ b, (Instr.openInlet p tag b).wellMade = false → s.turnsAway p tag 0x0A .badRequest (.openInlet p tag b)) ∧
    ∃ t, exec (.openInlet p tag (.fields { inlet := i.val, lane := l.val, depth := depth, wake := wake.toNat })) s
        = .next t ∧
      EqualButLine p
        (if i = 0 then (s.answer p tag 0x0A .fixed .none).setStream p none
         else if (s.inlet p i).state = .opened then (s.answer p tag 0x0A .badState .none).setStream p none
         else if (s.inlet p i).state = .draining then (s.answer p tag 0x0A .busy .none).setStream p none
         else ((s.answer p tag 0x0A .ok .none).setStream p none).onInlet p i fun _ =>
           { state := .opened, lane := l, depth := if depth = 0 then 8 else depth, wake := wake, queue := [],
             credit := 0, refusedFull := 0 }) t

/-- R23: SET_INLET, its four tests in their order, and the three values set together. Out of range it is answered
BAD_REQUEST. -/
def Obligations.SetInletInOrder : Prop :=
  ∀ (s : State) (p : Port) (tag : Byte) (i : Fin 16) (l : Fin 4) (depth : Nat) (wake : Bool), s.serves p → 1 ≤ depth →
    depth ≤ 64 →
    (∀ b, (Instr.setInlet p tag b).wellMade = false → s.turnsAway p tag 0x0C .badRequest (.setInlet p tag b)) ∧
    ∃ t, exec (.setInlet p tag (.fields { inlet := i.val, depth := depth, wake := wake.toNat, lane := l.val })) s
        = .next t ∧
      EqualButLine p
        (if i = 0 ∧ l ≠ 0 then (s.answer p tag 0x0C .fixed .none).setStream p none
         else if (s.inlet p i).state = .closed then (s.answer p tag 0x0C .inletClosed .none).setStream p none
         else if depth < (s.inlet p i).queue.length then (s.answer p tag 0x0C .badState .none).setStream p none
         else if depth = (s.inlet p i).depth ∧ wake = (s.inlet p i).wake ∧ l = (s.inlet p i).lane then
           (s.answer p tag 0x0C .already .none).setStream p none
         else ((s.answer p tag 0x0C .ok .none).setStream p none).onInlet p i fun x =>
           { x with depth := depth, wake := wake, lane := l }) t

/-- R33: SET_LANE. Lane 0 is FIXED whatever the mode given; the mode a lane already has is ALREADY; otherwise the mode
changes and every inlet keeps its pull credit. Out of range it is answered BAD_REQUEST. -/
def Obligations.SetLaneChangesTheMode : Prop :=
  ∀ (s : State) (p : Port) (tag : Byte) (l : Fin 4) (mode : LaneMode), s.serves p →
    (∀ b, (Instr.setLane p tag b).wellMade = false → s.turnsAway p tag 0x0D .badRequest (.setLane p tag b)) ∧
    ∃ t, exec (.setLane p tag (.fields { lane := l.val, mode := match mode with | .push => 0 | .pull => 1 })) s = .next t ∧
      EqualButLine p
        (if l = 0 then (s.answer p tag 0x0D .fixed .none).setStream p none
         else if (s.lane p l).mode = mode then (s.answer p tag 0x0D .already .none).setStream p none
         else ((s.answer p tag 0x0D .ok .none).setStream p none).onLane p l fun x => { x with mode := mode }) t

/-- R35: RECEIVE, its two tests in their order, then the credit raised and cut at 16. Out of range it is answered
BAD_REQUEST. -/
def Obligations.ReceiveAddsCredit : Prop :=
  ∀ (s : State) (p : Port) (tag : Byte) (i : Fin 16) (count : Nat), s.serves p → 1 ≤ count → count ≤ 16 →
    let credit := if (s.inlet p i).credit + count ≤ 16 then (s.inlet p i).credit + count else 16
    (∀ b, (Instr.receive p tag b).wellMade = false → s.turnsAway p tag 0x0E .badRequest (.receive p tag b)) ∧
    ∃ t, exec (.receive p tag (.fields { inlet := i.val, count := count })) s = .next t ∧
      EqualButLine p
        (if (s.inlet p i).state = .closed then (s.answer p tag 0x0E .inletClosed .none).setStream p none
         else if (s.lane p (s.inlet p i).lane).mode = .push then (s.answer p tag 0x0E .badState .none).setStream p none
         else ((s.answer p tag 0x0E
             (if ∃ d ∈ (s.inlet p i).queue, d.lifecycle = .queued then .queued else .empty)
             (.receive credit)).setStream p none).onInlet p i fun x => { x with credit := credit }) t

/-- R25 to R27, R12, R52: CLOSE_INLET by the inlet named, its state and the mode. Carried out, it revokes the ACTIVE families
bound to an OPEN inlet, destroys with DISCARD every QUEUED message, oldest first, and leaves the inlet CLOSED without credit
when nothing remains in it and DRAINING otherwise. -/
def Obligations.CloseInletCloses : Prop :=
  ∀ (s : State) (p : Port) (tag : Byte) (i : Fin 16) (discard : Bool), s.serves p →
    let cmd : Instr := .closeInlet p tag (.fields { inlet := i.val, mode := discard.toNat })
    (∀ b, (Instr.closeInlet p tag b).wellMade = false → s.turnsAway p tag 0x0B .badRequest (.closeInlet p tag b)) ∧
    (i = 0 → s.turnsAway p tag 0x0B .fixed cmd) ∧
    (i ≠ 0 → (s.inlet p i).state = .closed → s.turnsAway p tag 0x0B .already cmd) ∧
    (i ≠ 0 → (s.inlet p i).state = .draining → discard = false → s.turnsAway p tag 0x0B .already cmd) ∧
    (i ≠ 0 → ((s.inlet p i).state = .opened ∨ ((s.inlet p i).state = .draining ∧ discard = true)) →
      let rest := if discard then (s.inlet p i).queue.filter (fun d => decide (d.lifecycle ≠ .queued))
        else (s.inlet p i).queue
      let doomed := if discard then (s.inlet p i).queue.filter (fun d => decide (d.lifecycle = .queued)) else []
      let bound := fun x : Family => decide (x.state = .active ∧ x.creator = p ∧
        x.generation = (s.session p).generation ∧ x.targetInlet = i)
      let revoked := if (s.inlet p i).state = .opened then (List.finRange 256).countP fun f => (s.family f).any bound
        else 0
      let state : InletState := if rest = [] then .closed else .draining
      let cut := if (s.inlet p i).state = .opened then (s.taken p).familiesRevoked bound else s.taken p
      ∃ t, exec cmd s = .next t ∧
        (∀ u, Destroys p .discard cut (doomed.map fun d => (i, d)) u →
          EqualButLines ((u.onInlet p i fun x =>
            { x with state := state, credit := if rest = [] then 0 else x.credit }).replied p tag 0x0B .ok
              (.closeInlet state doomed.length revoked)) t) ∧
        t.inlet p i = { s.inlet p i with
          state := state, queue := rest, credit := if rest = [] then 0 else (s.inlet p i).credit } ∧
        (t.ctl p).responses = (s.ctl p).responses ++
          [{ tag := tag, kind := 0x0B, status := .ok,
             result := .closeInlet state ((s.inlet p i).queue.length - rest.length) revoked }] ∧
        ((s.inlet p i).state = .opened → ∀ f x y, s.family f = some x → bound x = true → t.family f = some y →
          y.state = .revoked) ∧
        t.stream p = none ∧ t.bulk = s.bulk ∧ t.config = s.config ∧
        (∀ q, t.engine q = s.engine q ∧ (t.session q).state = (s.session q).state ∧
          (t.session q).generation = (s.session q).generation))

/-! ### Sending -/

/-- R62, R64 to R68, R72, R73, R78, R79, R2 to R4, R8: a SEND without enclosures that passes every check appends one
message to the target inlet, wakes a DORMANT owner of a wake inlet, and charges the sending copy. -/
def Obligations.SendAppendsAMessage : Prop :=
  ∀ (s : State) (p : Port) (tag : Byte) (i : Fin 63) (ret : Bool) (body : List Byte) (r : RouteCopy) (x : Family),
    s.serves p → body.length ≤ 512 → s.route p i = some r → r.state = .live → s.family r.family = some x →
    r.outstanding < r.quota → (s.inlet x.creator x.targetInlet).state = .opened →
    (s.inlet x.creator x.targetInlet).queue.length < (s.inlet x.creator x.targetInlet).depth →
    let cells := (body.length + 31) / 32
    1 ≤ s.store.freeDescriptors → cells ≤ s.store.freeCells →
    ((s.inlet x.creator x.targetInlet).lane = 0 ∨
      (s.config.reserveCells + cells ≤ s.store.freeCells ∧
        s.config.reserveDescriptors + 1 ≤ s.store.freeDescriptors)) →
    let number := s.drawMessage.1
    let d : Descriptor :=
      { number := s.freeDescriptor, messageNumber := number,
        sender := .agent p (s.session p).generation i r.serial, targetPort := x.creator, targetInlet := x.targetInlet,
        ret := ret, label := x.label, lifecycle := .queued, enclosures := [], bodyLength := body.length,
        cells := fillCells (s.freeCellNumbers cells) body }
    d.cells.length = cells ∧ d.cells.flatMap BodyCell.bytes = body ∧
    ∃ t, exec (.send p tag (.fields
        { slot := i.val + 1, ret := ret.toNat, mint := 0, replyInlet := none, specs := [], bodyLength := body.length,
          body := body })) s = .next t ∧
      EqualButLines
        ((((((s.answer p tag 0x10 .ok (.send number none)).setStream p none).charged p i r x).onStore fun y =>
            { y with nextMessage := if number < 65535 then number + 1 else 1,
                     freeDescriptors := y.freeDescriptors - 1, freeCells := y.freeCells - cells }).onInlet x.creator
          x.targetInlet fun y => { y with queue := y.queue ++ [d] }).onSession x.creator fun y =>
            if (s.session x.creator).state = .dormant ∧ (s.inlet x.creator x.targetInlet).wake = true
            then { y with wakePending := true } else y) t

/-- R64, R66 to R72, R30, R9: a well-made SEND, with whatever specs and reply inlet, is answered by the first of checks 2 to 8 that
fails, and raises at most the one counter of that check. -/
def Obligations.SendRefusedAtTheFirstCheck : Prop :=
  ∀ (s : State) (p : Port) (tag : Byte) (i : Fin 63) (ret : Bool) (reply : Option (Fin 16)) (specs : List Spec)
    (body : List Byte), s.serves p → body.length ≤ 512 → (∀ x ∈ specs, x.admissible) →
    specs.length + reply.isSome.toNat ≤ 2 →
    (∀ r, s.route p i = some r → r.state = .live → s.family r.family ≠ none) →
    let refused := fun st : Status => (s.answer p tag 0x10 st .none).setStream p none
    let send : Instr := sendCommand p tag i ret reply specs body
    let answered := fun st : Status => ∃ t, exec send s = .next t ∧ EqualButLine p (refused st) t
    (s.route p i = none → answered .noRoute) ∧
    (∀ r, s.route p i = some r → r.state = .stale → answered .revoked) ∧
    (∀ r, s.route p i = some r → r.state = .reserved → answered .badState) ∧
    (∀ r x, s.route p i = some r → r.state = .live → s.family r.family = some x →
      let target := s.inlet x.creator x.targetInlet
      (r.quota ≤ r.outstanding → answered .quota) ∧
      (r.outstanding < r.quota → target.state ≠ .opened → answered .inletClosed) ∧
      (r.outstanding < r.quota → target.state = .opened → target.depth ≤ target.queue.length →
        ∃ t, exec send s = .next t ∧ EqualButLine p ((refused .inletFull).onInlet x.creator x.targetInlet fun y =>
          { y with refusedFull := if y.refusedFull < 65535 then y.refusedFull + 1 else y.refusedFull }) t) ∧
      (r.outstanding < r.quota → target.state = .opened → target.queue.length < target.depth →
        (∀ st, SpecsVerdict s p i [] specs (some st) → answered st) ∧
        (SpecsVerdict s p i [] specs none →
          (reply = some 0 → answered .fixed) ∧
          (∀ n, reply = some n → n ≠ 0 → (s.inlet p n).state ≠ .opened → answered .inletClosed) ∧
          (∀ n, reply = some n → n ≠ 0 → (s.inlet p n).state = .opened → (∀ f, s.family f ≠ none) → answered .noFamily) ∧
          (s.replyPasses p reply → ¬ s.storeTakes target.lane body.length →
            ∃ t, exec send s = .next t ∧ EqualButLine p ((refused .storeFull).onStore fun y =>
              { y with refused := if y.refused < 65535 then y.refused + 1 else y.refused }) t))))

/-- R69 to R79: a SEND that passes every check is admitted: its specs become the enclosures of the message in their order, COPY and
PASS, ROUTE and GRANT, the sending slot among them; a minted reply route is the last; the sending copy is charged; the message
is appended. The first part says it of one ROUTE spec by name: the copy in the message has the requested rights and quota
narrowed by the source's and by the family's ceilings; COPY raises the family's copy count and leaves the source, PASS frees
the source and leaves the count. -/
def Obligations.SendEnclosesARoute : Prop :=
  (∀ (s : State) (p : Port) (tag : Byte) (i j : Fin 63) (pass ret : Bool) (quota : Nat) (wish : RouteRights)
    (body : List Byte) (r : RouteCopy) (x : Family) (src : RouteCopy) (y : Family),
    s.serves p → body.length ≤ 512 → quota ≤ 32 → s.route p i = some r → r.state = .live → s.family r.family = some x →
    x.kind = .ordinary → r.outstanding < r.quota → (s.inlet x.creator x.targetInlet).state = .opened →
    (s.inlet x.creator x.targetInlet).queue.length < (s.inlet x.creator x.targetInlet).depth →
    (s.inlet x.creator x.targetInlet).lane = 0 → 1 ≤ s.store.freeDescriptors →
    (body.length + 31) / 32 ≤ s.store.freeCells →
    j ≠ i → s.route p j = some src → src.state = .live → s.family src.family = some y →
    (if pass then src.rights.pass else src.rights.copy) = true →
    ∃ t d, exec (.send p tag (.fields
        { slot := i.val + 1, ret := ret.toNat, mint := 0, replyInlet := none,
          specs := [{ kind := 0, slot := j.val + 1, mode := pass.toNat,
                      rights := wish.copy.toNat + 2 * wish.pass.toNat, quota := quota }],
          bodyLength := body.length, body := body })) s = .next t ∧
      (t.inlet x.creator x.targetInlet).queue = (s.inlet x.creator x.targetInlet).queue ++ [d] ∧
      d.enclosures = [.route src.family (if pass then .pass else .copy)
        { copy := wish.copy && src.rights.copy && y.rights.copy, pass := wish.pass && src.rights.pass && y.rights.pass }
        (if quota = 0 then min src.quota y.quota else min quota (min src.quota y.quota)) .inTransit] ∧
      d.body = body ∧
      t.route p j = (if pass then none else some src) ∧
      t.family src.family = some (if pass then y else { y with copies := y.copies + 1 }) ∧
      t.route p i = some { r with outstanding := r.outstanding + 1 } ∧
      (∀ q k, (q ≠ p ∨ (k ≠ i ∧ k ≠ j)) → t.route q k = s.route q k) ∧
      (∀ f, f ≠ src.family → t.family f = s.family f) ∧
      (∀ q k, (q ≠ x.creator ∨ k ≠ x.targetInlet) → t.inlet q k = s.inlet q k) ∧
      t.windows = s.windows ∧ t.bulk = s.bulk ∧ t.config = s.config) ∧
  (∀ (s : State) (p : Port) (tag : Byte) (i : Fin 63) (ret : Bool) (reply : Option (Fin 16)) (specs : List Spec)
    (body : List Byte) (r : RouteCopy) (x : Family), s.serves p → body.length ≤ 512 → (∀ y ∈ specs, y.admissible) →
    specs.length + reply.isSome.toNat ≤ 2 → s.route p i = some r → r.state = .live → s.family r.family = some x →
    r.outstanding < r.quota → (s.inlet x.creator x.targetInlet).state = .opened →
    (s.inlet x.creator x.targetInlet).queue.length < (s.inlet x.creator x.targetInlet).depth →
    SpecsVerdict s p i [] specs none → s.replyPasses p reply →
    s.storeTakes (s.inlet x.creator x.targetInlet).lane body.length →
    let cells := (body.length + 31) / 32
    let number := s.drawMessage.1
    ∃ t, exec (sendCommand p tag i ret reply specs body) s = .next t ∧
      ∀ es u minted v y,
        Encloses p ((s.taken p).onStore fun z => { z with nextMessage := if number < 65535 then number + 1 else 1 })
          specs es u →
        Mints p number u reply minted v → v.family r.family = some y →
        let d : Descriptor :=
          { number := s.freeDescriptor, messageNumber := number,
            sender := .agent p (s.session p).generation i r.serial, targetPort := x.creator, targetInlet := x.targetInlet,
            ret := ret, label := x.label, lifecycle := .queued, enclosures := es ++ replyEnclosure minted,
            bodyLength := body.length, cells := fillCells (s.freeCellNumbers cells) body }
        EqualButLines
          (((((v.charged p i r y).onStore fun z =>
              { z with freeDescriptors := z.freeDescriptors - 1, freeCells := z.freeCells - cells }).onInlet x.creator
            x.targetInlet fun z => { z with queue := z.queue ++ [d] }).onSession x.creator fun z =>
              if (s.session x.creator).state = .dormant ∧ (s.inlet x.creator x.targetInlet).wake = true
              then { z with wakePending := true } else z).replied p tag 0x10 .ok (.send number minted)) t)

/-! ### Windows, grants and streams -/

/-- R133: CREATE_WINDOW, its three tests in their order, and then the lowest FREE window and the lowest FREE grant slot of the
requester taken. A request that is not well made, such as a base above the limit, is answered BAD_REQUEST. -/
def Obligations.CreateWindowMakesAWindow : Prop :=
  ∀ (s : State) (p : Port) (tag : Byte) (base limit : Fin 262144) (share : Bool), s.serves p → base ≤ limit →
    let cmd : Instr := .createWindow p tag (.fields { base := base.val, limit := limit.val, share := share.toNat })
    let held := (s.settings p).partitionBase ≤ base.val ∧
      limit.val < (s.settings p).partitionBase + (s.settings p).partitionLength
    (∀ b, (Instr.createWindow p tag b).wellMade = false → s.turnsAway p tag 0x11 .badRequest (.createWindow p tag b)) ∧
    (¬ held → s.turnsAway p tag 0x11 .outOfPartition cmd) ∧
    (held → (∀ v, s.window v ≠ none) → s.turnsAway p tag 0x11 .noWindow cmd) ∧
    (held → (∃ v, s.window v = none) → (∀ j, s.grant p j ≠ none) → s.turnsAway p tag 0x11 .tableFull cmd) ∧
    (∀ (w : Fin 32) (i : Fin 8), held → s.window w = none → (∀ v, v < w → s.window v ≠ none) → s.grant p i = none →
      (∀ j, j < i → s.grant p j ≠ none) → ∃ t, exec cmd s = .next t ∧ EqualButLine p
        ((((s.answer p tag 0x11 .ok (.createWindow w i)).setStream p none).setWindow w (some
          { state := .opened, owner := p, generation := (s.session p).generation, base := base, limit := limit,
            share := share, grants := 1 })).setGrant p i (some
          { state := .live, window := w, rights := { read := true, write := true } })) t)

/-- R134, R135: CLOSE_WINDOW, its four tests in their order; by the owner it makes an OPEN window REVOKED, every LIVE grant slot
that names it STALE and every stream open over it BROKEN, at every port, and nothing else changes. -/
def Obligations.CloseWindowRevokes : Prop :=
  ∀ (s : State) (p : Port) (tag : Byte) (i : Fin 8), s.serves p →
    let cmd : Instr := .closeWindow p tag (.fields i.val)
    let mine := fun w : Window => w.owner = p ∧ w.generation = (s.session p).generation
    (s.grant p i = none → s.turnsAway p tag 0x12 .noGrant cmd) ∧
    (∀ g, s.grant p i = some g → g.state = .reserved → s.turnsAway p tag 0x12 .badState cmd) ∧
    (∀ g w, s.grant p i = some g → g.state ≠ .reserved → s.window g.window = some w → ¬ mine w →
      s.turnsAway p tag 0x12 .notPermitted cmd) ∧
    (∀ g w, s.grant p i = some g → g.state ≠ .reserved → s.window g.window = some w → mine w → w.state = .revoked →
      s.turnsAway p tag 0x12 .already cmd) ∧
    ∀ (g : Grant) (w : Window), s.grant p i = some g → g.state ≠ .reserved → s.window g.window = some w → mine w →
    w.state = .opened →
    let stale := ((List.finRange 8).map fun q => (List.finRange 8).countP fun j =>
      (s.grant q j).any fun h => decide (h.state = .live) && decide (h.window = g.window)).sum
    let broken := (List.finRange 8).countP fun q => decide (q ≠ p) && (s.stream q).any fun x =>
      decide (x.state ≠ .broken) && decide (x.window = g.window)
    let u := (s.answer p tag 0x12 .ok (.closeWindow g.window stale broken w.grants)).setStream p none
    ∃ t, exec cmd s = .next t ∧
      t = { s with windows := s.windows.put g.window (some { w with state := .revoked }), columns := t.columns } ∧
      ∀ q, t.col q = { u.col q with
        grants := (s.col q).grants.map fun slot => slot.map fun h =>
          if h.state = .live ∧ h.window = g.window then { h with state := .stale } else h
        stream := (u.stream q).map fun x =>
          if x.state ≠ .broken ∧ x.window = g.window then { x with state := .broken } else x
        port := { u.ctl q with atn := (t.ctl q).atn } }

/-- R136, R130: DROP_GRANT of a LIVE or STALE slot frees it and lowers its window's grant count; a window without grants is
FREE. A FREE slot is answered NO_GRANT and a RESERVED one BAD_STATE. -/
def Obligations.DropGrantFreesTheSlot : Prop :=
  ∀ (s : State) (p : Port) (tag : Byte) (i : Fin 8), s.serves p →
    let cmd : Instr := .dropGrant p tag (.fields i.val)
    (s.grant p i = none → s.turnsAway p tag 0x13 .noGrant cmd) ∧
    (∀ g, s.grant p i = some g → g.state = .reserved → s.turnsAway p tag 0x13 .badState cmd) ∧
    (∀ (g : Grant) (w : Window), s.grant p i = some g → g.state ≠ .reserved → s.window g.window = some w →
      ∃ t, exec cmd s = .next t ∧ EqualButLine p
        ((((s.answer p tag 0x13 .ok (.dropGrant g.window (w.grants - 1))).setStream p none).setGrant p i none).setWindow
          g.window (if w.grants ≤ 1 then none else some { w with grants := w.grants - 1 })) t)

/-- R141: STREAM_OPEN, its four tests in their order, then the stream over the slot's window with the cursor at the end its
order begins at. -/
def Obligations.StreamOpenInOrder : Prop :=
  ∀ (s : State) (p : Port) (tag : Byte) (i : Fin 8) (read descending : Bool), s.serves p →
    let open' : Instr := .streamOpen p tag (.fields
      { slot := i.val, direction := read.toNat, order := descending.toNat })
    (∀ b, (Instr.streamOpen p tag b).wellMade = false → s.turnsAway p tag 0x14 .badRequest (.streamOpen p tag b)) ∧
    (s.grant p i = none → s.turnsAway p tag 0x14 .noGrant open') ∧
    (∀ g, s.grant p i = some g → g.state = .reserved → s.turnsAway p tag 0x14 .badState open') ∧
    (∀ g, s.grant p i = some g → g.state = .stale → s.turnsAway p tag 0x14 .revoked open') ∧
    (∀ g, s.grant p i = some g → g.state = .live → (if read then g.rights.read else g.rights.write) = false →
      s.turnsAway p tag 0x14 .noRight open') ∧
    (∀ g w, s.grant p i = some g → g.state = .live → (if read then g.rights.read else g.rights.write) = true →
      s.window g.window = some w →
      let cursor : Int := if descending then w.limit.val else w.base.val
      ∃ t, exec open' s = .next t ∧ EqualButLine p
        ((s.answer p tag 0x14 .ok (.streamOpen g.window w.base w.limit g.rights cursor)).setStream p (some
          { state := if read then .read else .write, window := g.window, base := w.base, limit := w.limit,
            order := if descending then .descending else .ascending, cursor := cursor })) t)

/-- R142: STREAM_DATA by the stream's state, and BAD_REQUEST for no byte or more than 512. In WRITE, byte `k` of the frame goes to
the cursor's place `k` steps on when that lies within the window and is discarded otherwise; every other byte of bulk memory is
as before. Bulk memory is in its canonical form (log 12), which every step keeps (`QueuesMemoryAndEnginesKept`). -/
def Obligations.StreamDataWritesWithinTheWindow : Prop :=
  ∀ (s : State) (p : Port) (tag : Byte) (data : List Byte), s.serves p → 1 ≤ data.length → data.length ≤ 512 →
    let cmd : Instr := .streamData p tag data
    (∀ bs : List Byte, bs.length = 0 ∨ 512 < bs.length → ∃ t, exec (.streamData p tag bs) s = .next t ∧
      EqualButLine p (s.answer p tag 0x15 .badRequest .none) t) ∧
    (s.stream p = none → ∃ t, exec cmd s = .next t ∧ EqualButLine p (s.answer p tag 0x15 .badState .none) t) ∧
    (∀ x, s.stream p = some x → x.state = .read →
      ∃ t, exec cmd s = .next t ∧ EqualButLine p ((s.answer p tag 0x15 .badState .none).setStream p none) t) ∧
    (∀ x, s.stream p = some x → x.state = .broken →
      ∃ t, exec cmd s = .next t ∧ EqualButLine p ((s.answer p tag 0x15 .windowRevoked .none).setStream p none) t) ∧
    (∀ x, s.memoryCanonical → s.stream p = some x → x.state = .write →
      let place := fun k : Nat => match x.order with
        | .ascending => x.cursor + k
        | .descending => x.cursor - k
      let inside := fun z : Int => decide ((x.base.val : Int) ≤ z ∧ z ≤ x.limit.val)
      let cursor : Int := match x.order with
        | .ascending => max x.cursor (min (x.cursor + data.length) 262144)
        | .descending => min x.cursor (max (x.cursor - data.length) (-1))
      let written := (List.range data.length).countP fun k => inside (place k)
      ∃ t, exec cmd s = .next t ∧
        EqualButLine p
          ({ s.answer p tag 0x15 .ok (.streamData written (data.length - written) cursor) with bulk := t.bulk }.setStream
            p (some { x with cursor := cursor })) t ∧
        (∀ k < data.length, inside (place k) = true →
          Memory.read t.bulk (place k).toNat = data.getD k 0) ∧
        (∀ a : Nat, (∀ k < data.length, inside (place k) = true → (a : Int) ≠ place k) →
          Memory.read t.bulk a = Memory.read s.bulk a))

/-- R143: STREAM_READ by the stream's state, and BAD_REQUEST for a count of 0 or above 512. In READ it returns the lesser of the
count and the bytes remaining, in the stream's order, and the cursor moves by the number returned. -/
def Obligations.StreamReadReturnsTheWindow : Prop :=
  ∀ (s : State) (p : Port) (tag : Byte) (count : Nat), s.serves p → 1 ≤ count → count ≤ 512 →
    let cmd : Instr := .streamRead p tag (.fields count)
    (∀ n : Nat, n = 0 ∨ 512 < n → ∃ t, exec (.streamRead p tag (.fields n)) s = .next t ∧
      EqualButLine p (s.answer p tag 0x16 .badRequest .none) t) ∧
    (s.stream p = none → ∃ t, exec cmd s = .next t ∧ EqualButLine p (s.answer p tag 0x16 .badState .none) t) ∧
    (∀ x, s.stream p = some x → x.state = .write →
      ∃ t, exec cmd s = .next t ∧ EqualButLine p ((s.answer p tag 0x16 .badState .none).setStream p none) t) ∧
    (∀ x, s.stream p = some x → x.state = .broken →
      ∃ t, exec cmd s = .next t ∧ EqualButLine p ((s.answer p tag 0x16 .windowRevoked .none).setStream p none) t) ∧
    (∀ x, s.stream p = some x → x.state = .read →
      let remaining : Nat :=
        if (x.base.val : Int) ≤ x.cursor ∧ x.cursor ≤ x.limit.val then
          match x.order with
          | .ascending => (x.limit.val - x.cursor + 1).toNat
          | .descending => (x.cursor - x.base.val + 1).toNat
        else 0
      let n := min count remaining
      let place := fun k : Nat => match x.order with
        | .ascending => x.cursor + k
        | .descending => x.cursor - k
      ∃ t, exec cmd s = .next t ∧
        EqualButLine p
          ((s.answer p tag 0x16 .ok (.streamRead
            ((List.range n).map fun k => Memory.read s.bulk (place k).toNat) (place n))).setStream p
              (some { x with cursor := place n })) t)

/-! ### Supervision -/

/-- R181, R118: EVICT of an ATTACHED or DORMANT port starts its withdrawal with nothing held and is answered OK; of a VACANT
or WITHDRAWING port it is answered ALREADY and does nothing; EVICT of port 0 is answered BAD_REQUEST. The engine's copies of
timeout and retry limit stay by the model's choice (log 14). -/
def Obligations.EvictByState : Prop :=
  ∀ (s : State) (p : Port) (tag : Byte) (q : Port), s.supervised p → q ≠ 0 →
    ((s.session q).state = .attached ∨ (s.session q).state = .dormant →
      ∃ t u, exec (.evict p tag (.fields q.val)) s = .next t ∧ WithdrawalStarted (s.taken p) u q none none ∧
        EqualButLines (u.replied p tag 0x17 .ok .none) t ∧
        (t.ctl p).responses = (s.ctl p).responses ++ [{ tag := tag, kind := 0x17, status := .ok, result := .none }] ∧
        (t.ctl q).counters = (s.ctl q).counters) ∧
    ((s.session q).state = .vacant ∨ (s.session q).state = .withdrawing →
      s.turnsAway p tag 0x17 .already (.evict p tag (.fields q.val))) ∧
    s.turnsAway p tag 0x17 .badRequest (.evict p tag (.fields 0))

/-- R179, R180: SET_PORT replaces the five settings of the named port, SET_RESERVE both reserve values; each answers with
what now stands, and nothing else changes. Out of range each is answered BAD_REQUEST. -/
def Obligations.SettingsAreReplaced : Prop :=
  ∀ (s : State) (p : Port) (tag : Byte), s.supervised p →
    (∀ (q : Port) (x : PortSettings), 1 ≤ x.timeout → x.timeout ≤ 255 → x.retryLimit ≤ 7 → x.partitionBase ≤ 262143 →
      x.partitionBase + x.partitionLength ≤ 262144 →
      ∃ t, exec (.setPort p tag (.fields
          { port := q.val, timeout := x.timeout, retryLimit := x.retryLimit,
            atnMode := match x.atnMode with | .level => 0 | .pulse => 1, base := x.partitionBase,
            length := x.partitionLength })) s = .next t ∧
        EqualButLines
          { (s.answer p tag 0x18 .ok (.setPort x)).setStream p none with
            config := { s.config with ports := s.config.ports.put q x } } t) ∧
    (∀ b, (Instr.setPort p tag b).wellMade = false → s.turnsAway p tag 0x18 .badRequest (.setPort p tag b)) ∧
    (∀ b, (Instr.setReserve p tag b).wellMade = false → s.turnsAway p tag 0x19 .badRequest (.setReserve p tag b)) ∧
    (∀ cells descriptors : Nat, cells ≤ 512 → descriptors ≤ 64 →
      ∃ t, exec (.setReserve p tag (.fields { cells := cells, descriptors := descriptors })) s = .next t ∧
        EqualButLine p
          { (s.answer p tag 0x19 .ok (.setReserve cells descriptors s.store.freeCells s.store.freeDescriptors)).setStream
              p none with
            config := { s.config with reserveCells := cells, reserveDescriptors := descriptors } } t)

/-- R184, R18, R37, R61, R105, R125, R146, R174: SYSTEM_RESET puts every table, session, engine and port in its after-reset
state, keeps generations, configuration, bulk memory and supervisor present, and leaves its answer pending. That the levels of SEL
stay, how the inbound frame of the transaction under way ends, and that the assembly stands SEARCHING where none is under way, are
the model's choices (logs 3, 4 and 10). -/
def Obligations.SystemResetClearsThePart : Prop :=
  ∀ (s : State) (p : Port) (tag : Byte), s.supervised p →
    ∃ t, exec (.systemReset p tag []) s = .next t ∧
      t = { s with
        controller := .starting, pendingReset := some tag, columns := t.columns
        store := { freeCells := 4096, freeDescriptors := 1024, nextMessage := 1, nextSerial := 1, refused := 0, lost := 0 }
        families := Tab.all 256 none, windows := Tab.all 32 none } ∧
      ∀ q,
        t.session q = { state := .vacant, generation := (s.session q).generation, agentClass := 0,
                        name := List.replicate 16 0, heldBye := none, heldHello := none, heldAnswers := [],
                        wakePending := false, lost := 0, sweep := none } ∧
        t.engine q = { state := .idle, current := none, number := 0, retries := 0, timeout := (s.settings q).timeout,
                       retryLimit := (s.settings q).retryLimit, frame := none, timer := none } ∧
        t.ctl q = { sel := (s.ctl q).sel, assembly := if s.inTransaction q then .spent else .searching, responses := [],
                    outbound := (s.ctl q).outbound.map fun o => { o with carried := .discarded }, turn := .response,
                    overrun := 0, atn := .released,
                    counters := { framesIn := 0, frameErrors := 0, stray := 0, overruns := 0, completed := 0,
                                  abandoned := 0 } } ∧
        t.stream q = none ∧ (∀ i, t.route q i = none) ∧ (∀ i, t.grant q i = none) ∧
        (∀ l, t.lane q l = { mode := .push, lastServed := 15 }) ∧
        (∀ i, t.inlet q i = { state := .closed, lane := 0, depth := if i = 0 then 16 else 8, wake := decide (i = 0),
                              queue := [], credit := 0, refusedFull := 0 })

/-! ### The path of a request -/

/-- R169, R147: a request that finds the response queue full is counted as a frame in and as an overrun, and does nothing
else: it closes no stream and gets no answer. -/
def Obligations.RequestLostToOverrun : Prop :=
  ∀ (s : State) (i : Instr) (k : RequestKind) (p : Port) (tag : Byte), requestKind i = some k →
    requestHeader i = some (p, tag) → s.takesFrames p → 4 ≤ (s.ctl p).responses.length →
    ∃ t, exec i s = .next t ∧
      EqualButLine p (s.onCtl p fun c =>
        { c with
          assembly := c.ended
          overrun := if c.overrun < 255 then c.overrun + 1 else c.overrun
          counters := c.counters.addFrameIn.addOverrun }) t

/-- R150, R149, R162: a request that is not well made is answered BAD_REQUEST in every session state and without
privilege; nothing else changes, except that every request but STREAM_DATA and STREAM_READ has closed the stream. A request
of no known kind is answered so with its kind echoed. -/
def Obligations.FormGateRefuses : Prop :=
  ∀ (s : State) (p : Port) (tag : Byte), s.takesRequests p →
    (∀ (i : Instr) (k : RequestKind), requestKind i = some k → requestHeader i = some (p, tag) → i.wellMade = false →
      ∃ t, exec i s = .next t ∧
        EqualButLine p
          (if k = .streamData ∨ k = .streamRead then s.answer p tag k.code .badRequest .none
           else (s.answer p tag k.code .badRequest .none).setStream p none) t) ∧
    (∀ (kind : Byte) (body : List Byte), ∃ t, exec (.unknownRequestKind p tag kind body) s = .next t ∧
      EqualButLine p ((s.answer p tag kind .badRequest .none).setStream p none) t)

/-- R151, R152, R149: a well-made request other than HELLO is answered NOT_ATTACHED on a VACANT port and BUSY on a
WITHDRAWING one; on an ATTACHED or DORMANT port a supervision request is answered NOT_PERMITTED unless the port is port 0
and the supervisor is present. Nothing else changes but the stream. -/
def Obligations.SessionAndPrivilegeGates : Prop :=
  ∀ (s : State) (i : Instr) (k : RequestKind) (p : Port) (tag : Byte) (st : Status), requestKind i = some k → k ≠ .hello →
    requestHeader i = some (p, tag) → s.takesRequests p → i.wellMade = true →
    ((s.session p).state = .vacant ∧ st = .notAttached ∨ (s.session p).state = .withdrawing ∧ st = .busy ∨
      ((s.session p).state = .attached ∨ (s.session p).state = .dormant) ∧
        k ∈ [.evict, .setPort, .setReserve, .portStatus, .storeStatus, .systemReset] ∧
        ¬ (p = 0 ∧ s.supervisor = true) ∧ st = .notPermitted) →
    ∃ t, exec i s = .next t ∧
      EqualButLine p
        (if k = .streamData ∨ k = .streamRead then s.answer p tag k.code st .none
         else (s.answer p tag k.code st .none).setStream p none) t

/-- R148, R156: while STARTING an inbound frame of any kind only ends the assembly, and while RSTN is low it does
nothing. -/
def Obligations.FramesIgnoredWhileStarting : Prop :=
  ∀ (s : State) (i : Instr) (p : Port),
    ((requestHeader i).map Prod.fst = some p ∨ (∃ n, i = .ack p n) ∨ (∃ n, i = .nak p n) ∨
      (∃ tag, i = .inboundFrameError p tag)) →
    (s.rstnLow = true → exec i s = .next s) ∧
    (s.rstnLow = false → s.controller = .starting →
      exec i s = .next (s.onCtl p fun c => { c with assembly := c.ended }))

/-! ### Delivery -/

/-- R85, R87 to R90, R82: the first offer. The head's enclosures are settled in list order, the frame is built from what they
became, and the notices of the settlement are created last. -/
def Obligations.ChoicePresentsTheHead : Prop :=
  ∀ (s : State) (p : Port) (l : Fin 4) (i : Fin 16) (d : Descriptor) (rest : List Descriptor), s.rstnLow = false →
    (s.engine p).state = .idle → (s.session p).state = .attached → s.choice p = some (l, i) →
    (s.inlet p i).queue = d :: rest →
    let number := if (s.engine p).number < 255 then (s.engine p).number + 1 else 1
    let served := (s.onLane p l fun x => { x with lastServed := i }).onInlet p i fun x =>
      { x with credit := if (s.lane p l).mode = .pull then x.credit - 1 else x.credit }
    ∃ t, exec (.deliveryChoice p) s = .next t ∧
      ∀ settled calls u, Settles p served d.enclosures settled calls u →
        LinesApart p calls
          (((u.onInlet p i fun x =>
            { x with queue := { d with lifecycle := .inDelivery, enclosures := settled } :: rest }).onEngine p fun _ =>
            { state := .presented, current := some i, number := number, retries := 0,
              timeout := (s.settings p).timeout, retryLimit := (s.settings p).retryLimit, timer := none,
              frame := some { number := number, inlet := i, sender := d.sender, label := d.label,
                              messageNumber := d.messageNumber, ret := d.ret, entries := settled,
                              body := d.body } }).notifyAll calls) t

/-- R84, R85: the inlet chosen is a candidate, on the lowest-numbered lane that has one, and the first of that lane's
candidates after the one last served; a choice is made whenever there is a candidate. -/
def Obligations.ChoiceIsTheNextOfTheLowestLane : Prop :=
  ∀ (s : State) (p : Port),
    let candidate := fun j : Fin 16 => (s.inlet p j).state ≠ .closed ∧ (s.inlet p j).queue ≠ [] ∧
      ((s.lane p (s.inlet p j).lane).mode = .push ∨ 0 < (s.inlet p j).credit)
    (∀ l i, s.choice p = some (l, i) →
      candidate i ∧ (s.inlet p i).lane = l ∧ (∀ j, candidate j → l ≤ (s.inlet p j).lane) ∧
      (∀ j, candidate j → (s.inlet p j).lane = l →
        (i - ((s.lane p l).lastServed + 1)).val ≤ (j - ((s.lane p l).lastServed + 1)).val)) ∧
    (s.choice p = none → ∀ j, ¬ candidate j)

/-- R93, R95 to R97, R42, R11, R28: a matching ACK installs the delivery's RESERVED slots, releases the message, applies the
decrement test to its sender, creates the notices the installation calls for, closes a DRAINING inlet it empties, and leaves the
engine IDLE. The engine's copies of timeout and retry limit stay by the model's choice (log 14). -/
def Obligations.AckReleasesTheMessage : Prop :=
  ∀ (s : State) (p : Port) (n : Byte) (i : Fin 16) (d : Descriptor) (rest : List Descriptor), s.takesFrames p →
    (s.session p).state ≠ .withdrawing → (s.engine p).state ≠ .idle → (s.engine p).number = n.toNat →
    (s.engine p).current = some i → (s.inlet p i).queue = d :: rest →
    ∃ t, exec (.ack p n) s = .next t ∧
      ∀ calls u, Installs p d.sender (s.noted p) d.enclosures calls u →
        LinesApart p calls
          ((((u.messageGone p i d rest).notifyAll calls).deliveryOver p i).onCtl p fun c =>
            { c with counters := c.counters.addCompleted }) t

/-- R13: the decrement test. The outstanding count of one route slot falls by one exactly when port, generation, slot and
serial still match; nothing else changes. -/
def Obligations.DecrementTestMatches : Prop :=
  ∀ (s : State) (q : Port) (generation : Nat) (i : Fin 63) (serial : Nat),
    s.decrement .controller = s ∧
    (∀ r, s.route q i = some r → (s.session q).state ≠ .vacant → (s.session q).generation = generation →
      (r.state = .live ∨ r.state = .stale) → r.serial = serial →
      s.decrement (.agent q generation i serial) = s.setRoute q i (some { r with outstanding := r.outstanding - 1 })) ∧
    (¬ ((s.session q).state ≠ .vacant ∧ (s.session q).generation = generation ∧
        ∃ r, s.route q i = some r ∧ (r.state = .live ∨ r.state = .stale) ∧ r.serial = serial) →
      s.decrement (.agent q generation i serial) = s)

/-- R95, R42: a matching ACK installs a RESERVED route slot: LIVE under an ACTIVE family, STALE under a REVOKED one, with
serial, rights and quota as reserved. -/
def Obligations.AckInstallsARoute : Prop :=
  ∀ (s : State) (p : Port) (n : Byte) (i : Fin 16) (d : Descriptor) (rest : List Descriptor) (f : Fin 256)
    (mode : EnclosureMode) (rights : RouteRights) (quota : Nat) (j : Fin 63) (r : RouteCopy) (x : Family),
    s.takesFrames p → (s.session p).state ≠ .withdrawing → (s.engine p).state ≠ .idle →
    (s.engine p).number = n.toNat → (s.engine p).current = some i → (s.inlet p i).queue = d :: rest →
    d.enclosures = [.route f mode rights quota (.reserved j)] → s.route p j = some r → s.family f = some x →
    ∃ t r', exec (.ack p n) s = .next t ∧ t.route p j = some r' ∧
      r'.state = (if x.state = .active then .live else .stale) ∧ r'.family = r.family ∧ r'.rights = r.rights ∧
      r'.quota = r.quota ∧ r'.serial = r.serial ∧ t.family f = some x ∧ (t.engine p).state = .idle ∧
      (t.engine p).number = (s.engine p).number

/-- R92 to R94: a matching NAK in SENT, or the expiry of the timer, that leaves the retry count at or below the limit
presents the same frame again. -/
def Obligations.RetryPresentsAgain : Prop :=
  ∀ (s : State) (p : Port) (n : Byte), (s.engine p).state = .sent →
    (s.engine p).retries + 1 ≤ (s.engine p).retryLimit →
    let again := fun u : State => u.onEngine p fun e =>
      { e with state := .presented, retries := e.retries + 1, timer := none }
    (s.takesFrames p → (s.session p).state ≠ .withdrawing → (s.engine p).number = n.toNat →
      ∃ t, exec (.nak p n) s = .next t ∧ EqualButLine p (again (s.noted p)) t) ∧
    (s.rstnLow = false → ∃ t, exec (.timerExpiry p) s = .next t ∧ EqualButLine p (again s) t)

/-- R94, R99, R100, R12, R28: the retry above the limit abandons the message. Its RESERVED slots are freed, it leaves its queue and
its storage returns, the decrement test is applied to its sender, copies IN_TRANSIT in it cease, the notices these steps call for
are created, UNDELIVERED last, and the abandoned count rises. The engine's copies of timeout and retry limit stay by the model's
choice (log 14). -/
def Obligations.AbandonmentDestroysTheMessage : Prop :=
  ∀ (s : State) (p : Port) (n : Byte) (i : Fin 16) (d : Descriptor) (rest : List Descriptor),
    (s.engine p).state = .sent → (s.engine p).retryLimit < (s.engine p).retries + 1 →
    (s.engine p).current = some i → (s.inlet p i).queue = d :: rest →
    let abandoned := fun b t : State => ∀ freed u gone v,
      CopiesEnd p .abandoned Enclosure.isReserved b d.enclosures freed u →
      CopiesEnd p .abandoned Enclosure.isInTransit (u.messageGone p i d rest) d.enclosures gone v →
      let calls := freed ++ gone ++ d.undelivered .retryExhausted
      LinesApart p calls
        (((v.notifyAll calls).deliveryOver p i).onCtl p fun c => { c with counters := c.counters.addAbandoned }) t
    (s.takesFrames p → (s.session p).state ≠ .withdrawing → (s.engine p).number = n.toNat →
      ∃ t, exec (.nak p n) s = .next t ∧ abandoned (s.noted p) t) ∧
    (s.rstnLow = false → ∃ t, exec (.timerExpiry p) s = .next t ∧ abandoned s t)

/-- R93, R121: an ACK or NAK that does not match is counted as stray; while the session is WITHDRAWING it is not even that.
The engine, the timer and the message are as before. -/
def Obligations.StrayAcknowledgements : Prop :=
  ∀ (s : State) (p : Port) (n : Byte), s.takesFrames p →
    let stray := s.onCtl p fun c => { c with assembly := c.ended, counters := c.counters.addFrameIn.addStray }
    (((s.session p).state = .withdrawing) →
      (∃ t, exec (.ack p n) s = .next t ∧ EqualButLine p (s.noted p) t) ∧
      (∃ t, exec (.nak p n) s = .next t ∧ EqualButLine p (s.noted p) t)) ∧
    ((s.session p).state ≠ .withdrawing →
      ((s.engine p).state = .idle ∨ (s.engine p).number ≠ n.toNat →
        ∃ t, exec (.ack p n) s = .next t ∧ EqualButLine p stray t) ∧
      ((s.engine p).state ≠ .sent ∨ (s.engine p).number ≠ n.toNat →
        ∃ t, exec (.nak p n) s = .next t ∧ EqualButLine p stray t))

/-! ### The agent port -/

/-- R167: an inbound frame error raises the frame-error count and queues FRAME_ERROR with the frame's tag or 0, or counts an
overrun when the queue is full. It closes no stream and happens in every session state. While STARTING no error is taken. -/
def Obligations.FrameErrorIsAnswered : Prop :=
  ∀ (s : State) (p : Port) (tag : Option Byte),
    (s.rstnLow = false → s.controller = .starting →
      exec (.inboundFrameError p tag) s = .next (s.onCtl p fun c => { c with assembly := c.ended })) ∧
    (s.takesFrames p → ∃ t, exec (.inboundFrameError p tag) s = .next t ∧
      EqualButLine p (s.onCtl p fun c =>
        if c.responses.length < 4 then
          { c with
            assembly := c.ended, counters := c.counters.addFrameError
            responses := c.responses ++ [{ tag := tag.getD 0, kind := 0, status := .frameError, result := .none }] }
        else
          { c with
            assembly := c.ended, counters := c.counters.addFrameError.addOverrun
            overrun := if c.overrun < 255 then c.overrun + 1 else c.overrun }) t)

/-- R170, R158, R169, R164: at each assertion of SEL while RUNNING the arbiter fixes the outbound frame from the responses
that wait and the PRESENTED delivery, and the turn passes to the other kind of the one fixed. -/
def Obligations.ArbiterFixesTheFrame : Prop :=
  ∀ (s : State) (p : Port), s.rstnLow = false → s.controller = .running → (s.ctl p).sel = false →
    ((s.engine p).state = .presented → (s.engine p).frame ≠ none) →
    let started := fun (o : Outbound) (turn : Turn) => s.onCtl p fun c =>
      { c with sel := true, assembly := .searching, outbound := some o, turn := turn }
    let idle := fun body : List Byte =>
      ({ carried := .idle, bytes := frameBytes 0x83 0 body, progress := 0 } : Outbound)
    let response := fun r : Response =>
      ({ carried := .response (s.ctl p).overrun,
         bytes := frameBytes 0x81 r.tag (r.kind :: r.status.code :: byteOf (s.ctl p).overrun :: r.result.bytes),
         progress := 0 } : Outbound)
    let delivery := fun f : DeliverFrame => ({ carried := .deliver f.number, bytes := f.bytes, progress := 0 } : Outbound)
    ∃ t, exec (.transactionStart p) s = .next t ∧
      ((s.ctl p).responses = [] → (s.engine p).state ≠ .presented →
        t = started (idle
          [1, (s.session p).state.code, byteOf (s.session p).generation, 0, (s.engine p).state.code,
           flagByte (s.session p).wakePending, byteOf (s.session p).lost]) (s.ctl p).turn) ∧
      (∀ r rs, (s.ctl p).responses = r :: rs → (s.engine p).state ≠ .presented → t = started (response r) .deliver) ∧
      (∀ f, (s.ctl p).responses = [] → (s.engine p).state = .presented → (s.engine p).frame = some f →
        t = started (delivery f) .response) ∧
      (∀ r rs f, (s.ctl p).responses = r :: rs → (s.engine p).state = .presented → (s.engine p).frame = some f →
        t = match (s.ctl p).turn with
          | .response => started (response r) .deliver
          | .deliver => started (delivery f) .response)

/-- R171, R159, R156: SEL released during a transaction ends it, cutting short whatever frame was under way; a frame under
assembly is then an inbound frame error. That the assembly then stands SEARCHING is the model's choice (log 10). -/
def Obligations.TransactionEndCutsShort : Prop :=
  ∀ (s : State) (p : Port), s.rstnLow = false → s.controller = .running → s.inTransaction p = true →
    let ended := s.onCtl p fun c => { c with sel := false, outbound := none, assembly := .searching }
    (((s.ctl p).assembly = .searching ∨ (s.ctl p).assembly = .spent) → exec (.transactionEnd p) s = .next ended) ∧
    (∀ bytes, (s.ctl p).assembly = .inFrame bytes →
      ∃ t, exec (.transactionEnd p) s = .next t ∧
        EqualButLine p (ended.onCtl p fun c =>
          if c.responses.length < 4 then
            { c with
              counters := c.counters.addFrameError
              responses := c.responses ++ [{ tag := if 5 ≤ bytes.length then bytes.getD 2 0 else 0, kind := 0,
                                             status := .frameError, result := .none }] }
          else
            { c with
              counters := c.counters.addFrameError.addOverrun
              overrun := if c.overrun < 255 then c.overrun + 1 else c.overrun }) t)

/-- R171, R169, R124, R91: the outcomes of a frame shifted out whole. A response leaves the queue, the overrun count falls by
the value carried and held answers move in while there is room; a PRESENTED delivery of that number enters SENT with the timer
set; an IDLE frame or a discarded entry has no outcome. -/
def Obligations.ShiftedOutWhole : Prop :=
  ∀ (s : State) (p : Port) (o : Outbound), s.rstnLow = false → (s.ctl p).outbound = some o → o.progress < o.bytes.length →
    let done := s.onCtl p fun c => { c with outbound := some { o with progress := o.bytes.length } }
    ∃ t, exec (.frameShiftedOut p) s = .next t ∧
      (∀ n, o.carried = .response n →
        let left := (s.ctl p).responses.drop 1
        let held := (s.session p).heldAnswers
        EqualButLine p ((done.onCtl p fun c =>
          { c with responses := left ++ held.take (4 - left.length), overrun := c.overrun - n }).onSession p fun x =>
            { x with heldAnswers := held.drop (4 - left.length) }) t) ∧
      (∀ n, o.carried = .deliver n → (s.engine p).state = .presented → (s.engine p).number = n →
        EqualButLine p (done.onEngine p fun e => { e with state := .sent, timer := some e.timeout }) t) ∧
      (∀ n, o.carried = .deliver n → ((s.engine p).state ≠ .presented ∨ (s.engine p).number ≠ n) → t = done) ∧
      (o.carried = .idle ∨ o.carried = .discarded → t = done)

/-- R172: a pulse that has run its full width releases the line, and nothing else changes. -/
def Obligations.PulseEndsReleased : Prop :=
  ∀ (s : State) (p : Port), s.rstnLow = false → (s.ctl p).atn = .pulsing →
    exec (.atnPulseEnd p) s = .next (s.onCtl p fun c => { c with atn := .released })

/-- R156, R158, R159, R166, R168: a byte received within a transaction. The outbound byte of the same edges goes first: the frame
moves by one byte, or ends with it, as FRAME_SHIFTED_OUT says, or is already whole and stays (log 7: the two are taken one after
the other). Then SEARCHING takes 0xC3 and ignores every other byte; IN_FRAME keeps bytes until the frame is whole; the second CRC
byte runs the command the frame spells; SPENT ignores everything. With no transaction under way the byte is ignored (log 5), and
while RSTN is low. -/
def Obligations.BytesAreAssembled : Prop :=
  ∀ (s : State) (p : Port) (b : Byte),
    (s.rstnLow = true ∨ (s.ctl p).outbound = none → exec (.byteReceived p b) s = .next s) ∧
    ∀ (o : Outbound) (out : State), s.rstnLow = false → (s.ctl p).outbound = some o →
      (o.progress + 1 < o.bytes.length ∧
          out = s.onCtl p (fun c => { c with outbound := some { o with progress := o.progress + 1 } }) ∨
        o.progress + 1 = o.bytes.length ∧ exec (.frameShiftedOut p) s = .next out ∨
        o.bytes.length ≤ o.progress ∧ out = s) →
      let kept := fun bytes => out.onCtl p fun c => { c with assembly := .inFrame bytes }
      ((s.ctl p).assembly = .spent → exec (.byteReceived p b) s = .next out) ∧
      ((s.ctl p).assembly = .searching →
        exec (.byteReceived p b) s = .next (if b = 0xC3 then kept [b] else out)) ∧
      (∀ bytes, (s.ctl p).assembly = .inFrame bytes → bytes.length < 4 →
        exec (.byteReceived p b) s = .next (kept (bytes ++ [b]))) ∧
      (∀ bytes, (s.ctl p).assembly = .inFrame bytes → 4 ≤ bytes.length →
        let length := num16 ((bytes ++ [b]).getD 3 0) ((bytes ++ [b]).getD 4 0)
        exec (.byteReceived p b) s =
          if 560 < length then exec (.inboundFrameError p ((bytes ++ [b])[2]?)) out
          else if bytes.length + 1 = length + 7 then exec (frameCommand p (bytes ++ [b])) out
          else .next (kept (bytes ++ [b])))

/-! ### Sweeps -/

/-- R60, R145, R120, R46, R47: the route table's and the grant table's steps free every LIVE and STALE slot of the withdrawing
agent, lower each family's copy count and each window's grant count by the slots that named it, and report. The notices are those
each route slot in turn calls for, from its family as the slots before it have left it. -/
def Obligations.TableSweepsFreeTheSlots : Prop :=
  ∀ (s : State) (p : Port) (w : Sweep), s.rstnLow = false → (s.session p).state = .withdrawing →
    (s.session p).sweep = some w →
    (w.routeTable = true → ∃ t u : State, exec (.routeTableSweep p) s = .next t ∧
      EqualButLines (u.notifyAll ((List.finRange 63).flatMap fun i =>
        ((s.route p i).filter fun r => decide (r.state ≠ .reserved)).elim [] fun r => (s.family r.family).elim [] fun x =>
          let before := (List.finRange 63).countP fun j => decide (j < i) && (s.route p j).any fun q =>
            decide (q.state ≠ .reserved) && decide (q.family = r.family)
          if before = 0 ∨ before < x.copies then
            { x with copies := x.copies - before }.endCalls r.family p .withdrawn
          else [])) t ∧
      u = { s with families := u.families, columns := u.columns } ∧
      (∀ f, u.family f = (s.family f).bind fun x =>
        let k := (List.finRange 63).countP fun i => (s.route p i).any fun r =>
          decide (r.state ≠ .reserved) && decide (r.family = f)
        if k = 0 then some x else if x.copies ≤ k then none else some { x with copies := x.copies - k }) ∧
      (∀ q, q ≠ p → u.col q = s.col q) ∧
      u.col p = { s.col p with
        routes := (s.col p).routes.map fun slot => slot.bind fun r => if r.state = .reserved then some r else none
        session := { s.session p with sweep := some { w with routeTable := false } } }) ∧
    (w.grantTable = true → ∃ t, exec (.grantTableSweep p) s = .next t ∧
      t = { s with windows := t.windows, columns := t.columns } ∧
      (∀ v, t.window v = (s.window v).bind fun x =>
        let k := (List.finRange 8).countP fun i => (s.grant p i).any fun g =>
          decide (g.state ≠ .reserved) && decide (g.window = v)
        if k = 0 then some x else if x.grants ≤ k then none else some { x with grants := x.grants - k }) ∧
      (∀ q, q ≠ p → t.col q = s.col q) ∧
      t.col p = { s.col p with
        grants := (s.col p).grants.map fun slot => slot.bind fun g => if g.state = .reserved then some g else none
        session := { s.session p with sweep := some { w with grantTable := false } } })

/-- R36, R120, R37, R12: the inlet table's step destroys every message in the withdrawing agent's queues, inlet by inlet and oldest
first, returns its inlets and lanes to their reset values, and reports; other agents' messages stay in their order, with notices
at most behind them. -/
def Obligations.InletTableSweepEmpties : Prop :=
  ∀ (s : State) (p : Port) (w : Sweep), s.rstnLow = false → (s.session p).state = .withdrawing →
    (s.session p).sweep = some w → w.inletTable = true →
    ∃ t, exec (.inletTableSweep p) s = .next t ∧
      (∀ u, Destroys p .withdrawal s
          ((List.finRange 16).flatMap fun i => (s.inlet p i).queue.map fun d => (i, d)) u →
        EqualButLines (u.onCol p fun c =>
          { c with
            inlets := (Tab.all 16 { state := .closed, lane := 0, depth := 8, wake := false, queue := [], credit := 0,
                                    refusedFull := 0 }).put 0
              { state := .closed, lane := 0, depth := 16, wake := true, queue := [], credit := 0, refusedFull := 0 }
            lanes := Tab.all 4 { mode := .push, lastServed := 15 }
            session := { c.session with sweep := some { w with inletTable := false } } }) t) ∧
      (∀ i, t.inlet p i = { state := .closed, lane := 0, depth := if i = 0 then 16 else 8, wake := decide (i = 0),
                            queue := [], credit := 0, refusedFull := 0 }) ∧
      (∀ l, t.lane p l = { mode := .push, lastServed := 15 }) ∧
      t.session p = { s.session p with sweep := some { w with inletTable := false } } ∧
      (∀ q i, q ≠ p → ∃ new, (t.inlet q i).queue = (s.inlet q i).queue ++ new ∧ (∀ d ∈ new, d.sender = .controller) ∧
        (i ≠ 0 → new = []) ∧ (t.inlet q i).state = (s.inlet q i).state) ∧
      (∀ q, t.engine q = s.engine q ∧ (t.session q).state = (s.session q).state ∧
        (t.session q).generation = (s.session q).generation ∧ t.stream q = s.stream q) ∧
      t.bulk = s.bulk ∧ t.config = s.config

/-- R123, R124, R109: the completion of a sweep. The port becomes VACANT, or, with a HELLO held, a new session begins; the
held BYE's answer goes before the HELLO's, and what finds the queue full is held. -/
def Obligations.SweepCompletionAnswersWhatIsHeld : Prop :=
  ∀ (s : State) (p : Port), s.rstnLow = false → (s.session p).state = .withdrawing →
    (s.session p).sweep = some { routeTable := false, grantTable := false, inletTable := false } →
    let generation := if (s.session p).generation < 255 then (s.session p).generation + 1 else 1
    let bye : List Response := ((s.session p).heldBye.map fun tag =>
      { tag := tag, kind := 0x02, status := .ok, result := .none }).toList
    let hello : List Response := ((s.session p).heldHello.map fun h =>
      { tag := h.tag, kind := 0x01, status := .ok,
        result := .hello p generation (decide (p = 0) && s.supervisor) }).toList
    let room := 4 - (s.ctl p).responses.length
    let answered := (s.onCtl p fun c => { c with responses := c.responses ++ (bye ++ hello).take room }).onSession p
      fun x => { x with sweep := none, heldBye := none, heldHello := none,
                        heldAnswers := x.heldAnswers ++ (bye ++ hello).drop room }
    ∃ t, exec (.sweepCompletion p) s = .next t ∧
      ((s.session p).heldHello = none →
        EqualButLine p (answered.onSession p fun x =>
          { x with state := .vacant, agentClass := 0, name := List.replicate 16 0 }) t) ∧
      (∀ h, (s.session p).heldHello = some h →
        EqualButLine p ((answered.onSession p fun x =>
          { x with state := .attached, generation := generation, agentClass := h.agentClass, name := h.name,
                   wakePending := false, lost := 0 }).onCol p fun x =>
          { x with
            inlets := x.inlets.put 0 { state := .opened, lane := 0, depth := 16, wake := true, queue := [], credit := 0,
                                       refusedFull := 0 }
            lanes := Tab.all 4 { mode := .push, lastServed := 15 } }) t)

/-! ### Resets and start-up -/

/-- R177, R18, R37, R61, R105, R125, R126, R146, R174, R176: power-on and the release of RSTN put the part in its after-reset
state; power-on clears bulk memory and the pin keeps it. R156: the assertion of RSTN ends every transaction, releases every
line and discards a pending reset answer. That the levels of SEL and the waiting commands stay through a reset, that the assembly
stands SEARCHING while RSTN is low, and that every other record is then kept, is the model's choice (logs 1, 3, 10 and 13), as are
that power-on's and the pin's effects stand from their event on (log 2) and that power-on leaves RSTN high (log 15). -/
def Obligations.ResetsPutThePartInItsResetState : Prop :=
  ∀ s : State,
    let after := fun (bulk : List Host.Cell) (t : State) =>
      t = { rstnLow := false, controller := .starting, supervisor := false, pendingReset := none, bulk := bulk,
            config := { ports := t.config.ports, reserveCells := 128, reserveDescriptors := 32 },
            store := { freeCells := 4096, freeDescriptors := 1024, nextMessage := 1, nextSerial := 1, refused := 0,
                       lost := 0 },
            families := Tab.all 256 none, windows := Tab.all 32 none, columns := t.columns, pending := s.pending } ∧
      ∀ q,
        t.settings q = { timeout := 20, retryLimit := 3, atnMode := .level, partitionBase := 0,
                         partitionLength := if q = 0 then 262144 else 0 } ∧
        t.session q = { state := .vacant, generation := 0, agentClass := 0, name := List.replicate 16 0, heldBye := none,
                        heldHello := none, heldAnswers := [], wakePending := false, lost := 0, sweep := none } ∧
        t.engine q = { state := .idle, current := none, number := 0, retries := 0, timeout := 20, retryLimit := 3,
                       frame := none, timer := none } ∧
        t.ctl q = { sel := (s.ctl q).sel, assembly := .searching, responses := [], outbound := none, turn := .response,
                    overrun := 0, atn := .released,
                    counters := { framesIn := 0, frameErrors := 0, stray := 0, overruns := 0, completed := 0,
                                  abandoned := 0 } } ∧
        t.stream q = none ∧ (∀ i, t.route q i = none) ∧ (∀ i, t.grant q i = none) ∧
        (∀ l, t.lane q l = { mode := .push, lastServed := 15 }) ∧
        (∀ i, t.inlet q i = { state := .closed, lane := 0, depth := if i = 0 then 16 else 8, wake := decide (i = 0),
                              queue := [], credit := 0, refusedFull := 0 })
    (∃ t, exec .powerOn s = .next t ∧ after [] t) ∧
    (s.rstnLow = true → ∃ t, exec .resetPinRelease s = .next t ∧ after s.bulk t) ∧
    (∃ t, exec .resetPinAssert s = .next t ∧
      t = { s with rstnLow := true, pendingReset := none, columns := t.columns } ∧
      ∀ q, t.col q = { s.col q with
        port := { s.ctl q with outbound := none, assembly := .searching, atn := .released } })

/-- R177, R178, R185: at the completion of start-up the strap is sampled and the controller is RUNNING; a pending SYSTEM_RESET
is answered on port 0 with the supervisor flag as sampled. -/
def Obligations.StartupCompletes : Prop :=
  ∀ (s : State) (strap : Bool), s.rstnLow = false → s.controller = .starting → (s.ctl 0).responses.length < 4 →
    let running : State := { s with controller := .running, supervisor := strap, pendingReset := none }
    ∃ t, exec (.startupCompletion strap) s = .next t ∧
      (s.pendingReset = none → EqualButLines running t) ∧
      (∀ tag, s.pendingReset = some tag → EqualButLines (running.onCtl 0 fun c =>
        { c with responses := c.responses ++ [{ tag := tag, kind := 0x1C, status := .ok,
                                                result := .systemReset strap }] }) t)

/-! ### Laws of the whole part -/

/-- The laws of the part hold right after power-on. -/
def Obligations.LawsHoldAtReset : Prop :=
  State.reset.queuesBounded ∧ State.reset.memoryCanonical ∧ State.reset.linesLawful ∧ InletLaw State.reset ∧
    (∀ p, EngineLaw (State.reset.engine p))

/-- R168: a port's response queue never holds more than 4 responses; bulk memory keeps its one canonical form; R82, R83, R92: a
delivery engine has a message and a frame exactly while it is PRESENTED or SENT, and its timer runs in SENT only. Each over
every step. The canonical form is the model's (log 12). -/
def Obligations.QueuesMemoryAndEnginesKept : Prop :=
  ∀ s t : State, step s = .next t →
    (s.queuesBounded → t.queuesBounded) ∧ (s.memoryCanonical → t.memoryCanonical) ∧
      ((∀ p, EngineLaw (s.engine p)) → ∀ p, EngineLaw (t.engine p))

/-- R172, R117: every attention line stands as its port's mode and its session put it, over every step; and in PULSE mode, on an
ATTACHED or WITHDRAWING port, a pulse runs after a command exactly when it ran before and has not ended, or the command made the
waiting set go from empty to non-empty. A received byte is the two events its own statement splits it into (`BytesAreAssembled`,
log 7), each of them a command of its own here. What a running pulse does when the session or the mode changes under it is the
model's reading (log 6). -/
def Obligations.LinesStayLawful : Prop :=
  (∀ s t : State, step s = .next t → s.linesLawful → t.linesLawful) ∧
  (∀ (i : Instr) (s t : State) (p : Port), exec i s = .next t → (∀ q b, i ≠ .byteReceived q b) → t.rstnLow = false →
    t.controller = .running → (t.session p).state = .attached ∨ (t.session p).state = .withdrawing →
    (t.settings p).atnMode = .pulse →
    ((t.ctl p).atn = .pulsing ↔ ((s.ctl p).atn = .pulsing ∧ i ≠ .atnPulseEnd p) ∨ (¬ s.waits p ∧ t.waits p)))

/-- R19, R20, R21: no queue exceeds its depth limit, a CLOSED inlet is empty and without credit, and inlet 0 is OPEN while its
agent is ATTACHED or DORMANT, over every step. -/
def Obligations.InletLawsKept : Prop :=
  ∀ s t : State, step s = .next t → InletLaw s → InletLaw t

/-- R44, R52: a REVOKED family never becomes ACTIVE again: after any command it is REVOKED still, with its creator and target
unchanged, or FREE. -/
def Obligations.RevokedStaysRevoked : Prop :=
  ∀ (i : Instr) (s t : State) (f : Fin 256) (x : Family), exec i s = .next t → s.family f = some x → x.state = .revoked →
    t.family f = none ∨ ∃ y, t.family f = some y ∧ y = { x with copies := y.copies }

/-- R152, R176: the configuration record changes only by a reset or at port 0 while the supervisor is present. -/
def Obligations.ConfigurationIsTheSupervisors : Prop :=
  ∀ (i : Instr) (s t : State), exec i s = .next t → i ≠ .powerOn → i ≠ .resetPinRelease →
    (s.supervisor = false ∨ commandPort i ≠ some 0) → t.config = s.config

/-- R126, R142, R144: a byte of bulk memory changes only by power-on or by a frame of the port whose open WRITE stream has it
in its window. -/
def Obligations.BulkMemoryOnlyThroughAStream : Prop :=
  ∀ (i : Instr) (s t : State) (a : Nat), exec i s = .next t → i ≠ .powerOn →
    Memory.read t.bulk a ≠ Memory.read s.bulk a →
    ∃ p x, s.stream p = some x ∧ x.state = .write ∧ x.base.val ≤ a ∧ a ≤ x.limit.val ∧
      ((∃ tag data, i = .streamData p tag data) ∨ ∃ b, i = .byteReceived p b)

/-- R160 to R162: every well-formed request is read back from the frame that spells it. -/
def Obligations.FramesSpellTheirRequests : Prop :=
  ∀ (i : Instr) (p : Port) (tag : Byte) (body : List Byte), i.wellFormed = true → requestHeader i = some (p, tag) →
    requestBody i = some body → frameCommand p (frameBytes 0x01 tag body) = i

/-- R161: the CRC of the nine ASCII bytes "123456789" is 0x29B1; and the reading of some frames written out byte by byte. -/
def Obligations.CrcCheckValueAndSomeFrames : Prop :=
  crc16 [0x31, 0x32, 0x33, 0x34, 0x35, 0x36, 0x37, 0x38, 0x39] = 0x29B1 ∧
  requestCommand 3 7 [0x0D, 0x02, 0x01] = .setLane 3 7 (.fields { lane := 2, mode := 1 }) ∧
  requestCommand 0 9 [0x19, 0x01, 0x00, 0x20] = .setReserve 0 9 (.fields { cells := 256, descriptors := 32 }) ∧
  requestCommand 5 1 [0x10, 0x04, 0x01, 0x01, 0x06, 0x01, 0x00, 0x09, 0x01, 0x03, 0x00, 0x00, 0x02, 0xAA, 0xBB] =
    .send 5 1 (.fields { slot := 4, ret := 1, mint := 1, replyInlet := some 6,
                         specs := [{ kind := 0, slot := 9, mode := 1, rights := 3, quota := 0 }], bodyLength := 2,
                         body := [0xAA, 0xBB] })

/-- R6, R7: a message number or a copy serial that is drawn is the first from its counter on that is not in use, and the
counter stands just past it. -/
def Obligations.DrawnNumbersAreUnused : Prop :=
  ∀ s : State,
    (s.descriptors.length < 65535 →
      (∀ d ∈ s.descriptors, d.messageNumber ≠ s.drawMessage.1) ∧
      (∃ k, s.drawMessage.1 = nextNumber^[k] s.store.nextMessage ∧
        ∀ j < k, ∃ d ∈ s.descriptors, d.messageNumber = nextNumber^[j] s.store.nextMessage) ∧
      s.drawMessage.2 = s.onStore fun x => { x with nextMessage := nextNumber s.drawMessage.1 }) ∧
    (s.serialsInUse.length < 65535 →
      s.drawSerial.1 ∉ s.serialsInUse ∧
      (∃ k, s.drawSerial.1 = nextNumber^[k] s.store.nextSerial ∧
        ∀ j < k, nextNumber^[j] s.store.nextSerial ∈ s.serialsInUse) ∧
      s.drawSerial.2 = s.onStore fun x => { x with nextSerial := nextNumber s.drawSerial.1 })
end

