-- ==== Sys2Proof/Laws/State.lean ====
section
/-! SUPPORT. One lemma per field per update: what a change of one record leaves in every other, and what it leaves in that
one. Each is true by unfolding the update once, so that no later proof unfolds one. -/

namespace Sys2Proof

/-! ### Tables -/

theorem Tab.ext_cells {n : Nat} {α : Type} {t u : Tab n α} (h : t.cells = u.cells) : t = u := by
  cases t; cases u; cases h; rfl

@[simp] theorem Tab.get_put_same {n : Nat} {α : Type} (t : Tab n α) (i : Fin n) (x : α) : (t.put i x).get i = x := by
  simp [Tab.get, Tab.put]

@[simp] theorem Tab.get_put_ne {n : Nat} {α : Type} (t : Tab n α) {i j : Fin n} (x : α) (h : j ≠ i) :
    (t.put i x).get j = t.get j := by
  have h' : i.val ≠ j.val := fun e => h (Fin.ext e.symm)
  simp [Tab.get, Tab.put, h']

theorem Tab.get_put {n : Nat} {α : Type} (t : Tab n α) (i j : Fin n) (x : α) :
    (t.put i x).get j = if j = i then x else t.get j := by
  by_cases h : j = i
  · subst h; simp
  · simp [h]

@[simp] theorem Tab.get_map {n : Nat} {α β : Type} (f : α → β) (t : Tab n α) (i : Fin n) :
    (t.map f).get i = f (t.get i) := by
  simp [Tab.get, Tab.map]

@[simp] theorem Tab.get_all {n : Nat} {α : Type} (x : α) (i : Fin n) : (Tab.all n x).get i = x := by
  simp [Tab.get, Tab.all]

theorem Tab.ext_get {n : Nat} {α : Type} {t u : Tab n α} (h : ∀ i, t.get i = u.get i) : t = u := by
  apply Tab.ext_cells
  apply List.ext_getElem (by rw [t.len, u.len])
  intro k h1 _
  exact h ⟨k, by rw [← t.len]; exact h1⟩

@[simp] theorem Tab.put_get {n : Nat} {α : Type} (t : Tab n α) (i : Fin n) : t.put i (t.get i) = t := by
  apply Tab.ext_get
  intro j
  by_cases h : j = i
  · subst h; simp
  · simp [h]

@[simp] theorem Tab.put_put {n : Nat} {α : Type} (t : Tab n α) (i : Fin n) (x y : α) :
    (t.put i x).put i y = t.put i y := by
  apply Tab.ext_get
  intro j
  by_cases h : j = i
  · subst h; simp
  · simp [h]

end Sys2Proof

namespace Sys2Proof.Machine

/-! ### A column changed -/

@[simp] theorem State.onCol_col_same (s : State) (p : Port) (f : Column → Column) :
    (s.onCol p f).col p = f (s.col p) := by
  simp [State.onCol, State.col]

@[simp] theorem State.onCol_col_ne (s : State) {p q : Port} (f : Column → Column) (h : q ≠ p) :
    (s.onCol p f).col q = s.col q := by
  simp [State.onCol, State.col, h]

theorem State.onCol_col (s : State) (p q : Port) (f : Column → Column) :
    (s.onCol p f).col q = if q = p then f (s.col q) else s.col q := by
  by_cases h : q = p
  · subst h; simp
  · simp [h]

@[simp] theorem State.onCol_onCol (s : State) (p : Port) (f g : Column → Column) :
    (s.onCol p f).onCol p g = s.onCol p fun c => g (f c) := by
  simp [State.onCol]

theorem State.onCol_congr (s : State) (p : Port) {f g : Column → Column} (h : f (s.col p) = g (s.col p)) :
    s.onCol p f = s.onCol p g := by
  unfold State.onCol
  have h' : f (s.columns.get p) = g (s.columns.get p) := h
  rw [h']

theorem State.onCol_self (s : State) (p : Port) {f : Column → Column} (h : f (s.col p) = s.col p) : s.onCol p f = s := by
  unfold State.onCol
  have h' : f (s.columns.get p) = s.columns.get p := h
  rw [h', Tab.put_get]

/-- Two states are equal when all but their columns agree and each column does. -/
theorem State.ext_columns {s t : State} (h : { t with columns := s.columns } = s) (c : ∀ q, t.col q = s.col q) :
    t = s := by
  have e : t.columns = s.columns := Tab.ext_get c
  rw [← h, ← e]



/-! ### `onCol` -/

@[simp] theorem State.onCol_rstnLow (s : State) (p : Port) (f : Column → Column) : (s.onCol p f).rstnLow = s.rstnLow := rfl
@[simp] theorem State.onCol_controller (s : State) (p : Port) (f : Column → Column) : (s.onCol p f).controller = s.controller := rfl
@[simp] theorem State.onCol_supervisor (s : State) (p : Port) (f : Column → Column) : (s.onCol p f).supervisor = s.supervisor := rfl
@[simp] theorem State.onCol_pendingReset (s : State) (p : Port) (f : Column → Column) : (s.onCol p f).pendingReset = s.pendingReset := rfl
@[simp] theorem State.onCol_config (s : State) (p : Port) (f : Column → Column) : (s.onCol p f).config = s.config := rfl
@[simp] theorem State.onCol_store (s : State) (p : Port) (f : Column → Column) : (s.onCol p f).store = s.store := rfl
@[simp] theorem State.onCol_families (s : State) (p : Port) (f : Column → Column) : (s.onCol p f).families = s.families := rfl
@[simp] theorem State.onCol_windows (s : State) (p : Port) (f : Column → Column) : (s.onCol p f).windows = s.windows := rfl
@[simp] theorem State.onCol_bulk (s : State) (p : Port) (f : Column → Column) : (s.onCol p f).bulk = s.bulk := rfl
@[simp] theorem State.onCol_pending (s : State) (p : Port) (f : Column → Column) : (s.onCol p f).pending = s.pending := rfl
@[simp] theorem State.onCol_family (s : State) (p : Port) (f : Column → Column) (n : Fin 256) : (s.onCol p f).family n = s.family n := rfl
@[simp] theorem State.onCol_window (s : State) (p : Port) (f : Column → Column) (n : Fin 32) : (s.onCol p f).window n = s.window n := rfl
@[simp] theorem State.onCol_settings (s : State) (p : Port) (f : Column → Column) (q : Port) : (s.onCol p f).settings q = s.settings q := rfl

/-! ### `onSession` -/

@[simp] theorem State.onSession_rstnLow (s : State) (p : Port) (f : Session → Session) : (s.onSession p f).rstnLow = s.rstnLow := rfl
@[simp] theorem State.onSession_controller (s : State) (p : Port) (f : Session → Session) : (s.onSession p f).controller = s.controller := rfl
@[simp] theorem State.onSession_supervisor (s : State) (p : Port) (f : Session → Session) : (s.onSession p f).supervisor = s.supervisor := rfl
@[simp] theorem State.onSession_pendingReset (s : State) (p : Port) (f : Session → Session) : (s.onSession p f).pendingReset = s.pendingReset := rfl
@[simp] theorem State.onSession_config (s : State) (p : Port) (f : Session → Session) : (s.onSession p f).config = s.config := rfl
@[simp] theorem State.onSession_store (s : State) (p : Port) (f : Session → Session) : (s.onSession p f).store = s.store := rfl
@[simp] theorem State.onSession_families (s : State) (p : Port) (f : Session → Session) : (s.onSession p f).families = s.families := rfl
@[simp] theorem State.onSession_windows (s : State) (p : Port) (f : Session → Session) : (s.onSession p f).windows = s.windows := rfl
@[simp] theorem State.onSession_bulk (s : State) (p : Port) (f : Session → Session) : (s.onSession p f).bulk = s.bulk := rfl
@[simp] theorem State.onSession_pending (s : State) (p : Port) (f : Session → Session) : (s.onSession p f).pending = s.pending := rfl
@[simp] theorem State.onSession_family (s : State) (p : Port) (f : Session → Session) (n : Fin 256) : (s.onSession p f).family n = s.family n := rfl
@[simp] theorem State.onSession_window (s : State) (p : Port) (f : Session → Session) (n : Fin 32) : (s.onSession p f).window n = s.window n := rfl
@[simp] theorem State.onSession_settings (s : State) (p : Port) (f : Session → Session) (q : Port) : (s.onSession p f).settings q = s.settings q := rfl
@[simp] theorem State.onSession_session_same (s : State) (p : Port) (f : Session → Session) : (s.onSession p f).session p = f (s.session p) := by
  simp [State.onSession, State.session]
@[simp] theorem State.onSession_session_ne (s : State) {p q : Port} (f : Session → Session) (h : q ≠ p) :
    (s.onSession p f).session q = s.session q := by
  simp [State.onSession, State.session, h]
@[simp] theorem State.onSession_engine (s : State) (p : Port) (f : Session → Session) (q : Port) :
    (s.onSession p f).engine q = s.engine q := by
  by_cases h : q = p
  · subst h; simp [State.onSession, State.engine]
  · simp [State.onSession, State.engine, h]
@[simp] theorem State.onSession_ctl (s : State) (p : Port) (f : Session → Session) (q : Port) :
    (s.onSession p f).ctl q = s.ctl q := by
  by_cases h : q = p
  · subst h; simp [State.onSession, State.ctl]
  · simp [State.onSession, State.ctl, h]
@[simp] theorem State.onSession_stream (s : State) (p : Port) (f : Session → Session) (q : Port) :
    (s.onSession p f).stream q = s.stream q := by
  by_cases h : q = p
  · subst h; simp [State.onSession, State.stream]
  · simp [State.onSession, State.stream, h]
@[simp] theorem State.onSession_inlet (s : State) (p : Port) (f : Session → Session) (q : Port) (i : Fin 16) :
    (s.onSession p f).inlet q i = s.inlet q i := by
  by_cases h : q = p
  · subst h; simp [State.onSession, State.inlet]
  · simp [State.onSession, State.inlet, h]
@[simp] theorem State.onSession_lane (s : State) (p : Port) (f : Session → Session) (q : Port) (i : Fin 4) :
    (s.onSession p f).lane q i = s.lane q i := by
  by_cases h : q = p
  · subst h; simp [State.onSession, State.lane]
  · simp [State.onSession, State.lane, h]
@[simp] theorem State.onSession_route (s : State) (p : Port) (f : Session → Session) (q : Port) (i : Fin 63) :
    (s.onSession p f).route q i = s.route q i := by
  by_cases h : q = p
  · subst h; simp [State.onSession, State.route]
  · simp [State.onSession, State.route, h]
@[simp] theorem State.onSession_grant (s : State) (p : Port) (f : Session → Session) (q : Port) (i : Fin 8) :
    (s.onSession p f).grant q i = s.grant q i := by
  by_cases h : q = p
  · subst h; simp [State.onSession, State.grant]
  · simp [State.onSession, State.grant, h]

/-! ### `onEngine` -/

@[simp] theorem State.onEngine_rstnLow (s : State) (p : Port) (f : Engine → Engine) : (s.onEngine p f).rstnLow = s.rstnLow := rfl
@[simp] theorem State.onEngine_controller (s : State) (p : Port) (f : Engine → Engine) : (s.onEngine p f).controller = s.controller := rfl
@[simp] theorem State.onEngine_supervisor (s : State) (p : Port) (f : Engine → Engine) : (s.onEngine p f).supervisor = s.supervisor := rfl
@[simp] theorem State.onEngine_pendingReset (s : State) (p : Port) (f : Engine → Engine) : (s.onEngine p f).pendingReset = s.pendingReset := rfl
@[simp] theorem State.onEngine_config (s : State) (p : Port) (f : Engine → Engine) : (s.onEngine p f).config = s.config := rfl
@[simp] theorem State.onEngine_store (s : State) (p : Port) (f : Engine → Engine) : (s.onEngine p f).store = s.store := rfl
@[simp] theorem State.onEngine_families (s : State) (p : Port) (f : Engine → Engine) : (s.onEngine p f).families = s.families := rfl
@[simp] theorem State.onEngine_windows (s : State) (p : Port) (f : Engine → Engine) : (s.onEngine p f).windows = s.windows := rfl
@[simp] theorem State.onEngine_bulk (s : State) (p : Port) (f : Engine → Engine) : (s.onEngine p f).bulk = s.bulk := rfl
@[simp] theorem State.onEngine_pending (s : State) (p : Port) (f : Engine → Engine) : (s.onEngine p f).pending = s.pending := rfl
@[simp] theorem State.onEngine_family (s : State) (p : Port) (f : Engine → Engine) (n : Fin 256) : (s.onEngine p f).family n = s.family n := rfl
@[simp] theorem State.onEngine_window (s : State) (p : Port) (f : Engine → Engine) (n : Fin 32) : (s.onEngine p f).window n = s.window n := rfl
@[simp] theorem State.onEngine_settings (s : State) (p : Port) (f : Engine → Engine) (q : Port) : (s.onEngine p f).settings q = s.settings q := rfl
@[simp] theorem State.onEngine_session (s : State) (p : Port) (f : Engine → Engine) (q : Port) :
    (s.onEngine p f).session q = s.session q := by
  by_cases h : q = p
  · subst h; simp [State.onEngine, State.session]
  · simp [State.onEngine, State.session, h]
@[simp] theorem State.onEngine_engine_same (s : State) (p : Port) (f : Engine → Engine) : (s.onEngine p f).engine p = f (s.engine p) := by
  simp [State.onEngine, State.engine]
@[simp] theorem State.onEngine_engine_ne (s : State) {p q : Port} (f : Engine → Engine) (h : q ≠ p) :
    (s.onEngine p f).engine q = s.engine q := by
  simp [State.onEngine, State.engine, h]
@[simp] theorem State.onEngine_ctl (s : State) (p : Port) (f : Engine → Engine) (q : Port) :
    (s.onEngine p f).ctl q = s.ctl q := by
  by_cases h : q = p
  · subst h; simp [State.onEngine, State.ctl]
  · simp [State.onEngine, State.ctl, h]
@[simp] theorem State.onEngine_stream (s : State) (p : Port) (f : Engine → Engine) (q : Port) :
    (s.onEngine p f).stream q = s.stream q := by
  by_cases h : q = p
  · subst h; simp [State.onEngine, State.stream]
  · simp [State.onEngine, State.stream, h]
@[simp] theorem State.onEngine_inlet (s : State) (p : Port) (f : Engine → Engine) (q : Port) (i : Fin 16) :
    (s.onEngine p f).inlet q i = s.inlet q i := by
  by_cases h : q = p
  · subst h; simp [State.onEngine, State.inlet]
  · simp [State.onEngine, State.inlet, h]
@[simp] theorem State.onEngine_lane (s : State) (p : Port) (f : Engine → Engine) (q : Port) (i : Fin 4) :
    (s.onEngine p f).lane q i = s.lane q i := by
  by_cases h : q = p
  · subst h; simp [State.onEngine, State.lane]
  · simp [State.onEngine, State.lane, h]
@[simp] theorem State.onEngine_route (s : State) (p : Port) (f : Engine → Engine) (q : Port) (i : Fin 63) :
    (s.onEngine p f).route q i = s.route q i := by
  by_cases h : q = p
  · subst h; simp [State.onEngine, State.route]
  · simp [State.onEngine, State.route, h]
@[simp] theorem State.onEngine_grant (s : State) (p : Port) (f : Engine → Engine) (q : Port) (i : Fin 8) :
    (s.onEngine p f).grant q i = s.grant q i := by
  by_cases h : q = p
  · subst h; simp [State.onEngine, State.grant]
  · simp [State.onEngine, State.grant, h]

/-! ### `onCtl` -/

@[simp] theorem State.onCtl_rstnLow (s : State) (p : Port) (f : PortController → PortController) : (s.onCtl p f).rstnLow = s.rstnLow := rfl
@[simp] theorem State.onCtl_controller (s : State) (p : Port) (f : PortController → PortController) : (s.onCtl p f).controller = s.controller := rfl
@[simp] theorem State.onCtl_supervisor (s : State) (p : Port) (f : PortController → PortController) : (s.onCtl p f).supervisor = s.supervisor := rfl
@[simp] theorem State.onCtl_pendingReset (s : State) (p : Port) (f : PortController → PortController) : (s.onCtl p f).pendingReset = s.pendingReset := rfl
@[simp] theorem State.onCtl_config (s : State) (p : Port) (f : PortController → PortController) : (s.onCtl p f).config = s.config := rfl
@[simp] theorem State.onCtl_store (s : State) (p : Port) (f : PortController → PortController) : (s.onCtl p f).store = s.store := rfl
@[simp] theorem State.onCtl_families (s : State) (p : Port) (f : PortController → PortController) : (s.onCtl p f).families = s.families := rfl
@[simp] theorem State.onCtl_windows (s : State) (p : Port) (f : PortController → PortController) : (s.onCtl p f).windows = s.windows := rfl
@[simp] theorem State.onCtl_bulk (s : State) (p : Port) (f : PortController → PortController) : (s.onCtl p f).bulk = s.bulk := rfl
@[simp] theorem State.onCtl_pending (s : State) (p : Port) (f : PortController → PortController) : (s.onCtl p f).pending = s.pending := rfl
@[simp] theorem State.onCtl_family (s : State) (p : Port) (f : PortController → PortController) (n : Fin 256) : (s.onCtl p f).family n = s.family n := rfl
@[simp] theorem State.onCtl_window (s : State) (p : Port) (f : PortController → PortController) (n : Fin 32) : (s.onCtl p f).window n = s.window n := rfl
@[simp] theorem State.onCtl_settings (s : State) (p : Port) (f : PortController → PortController) (q : Port) : (s.onCtl p f).settings q = s.settings q := rfl
@[simp] theorem State.onCtl_session (s : State) (p : Port) (f : PortController → PortController) (q : Port) :
    (s.onCtl p f).session q = s.session q := by
  by_cases h : q = p
  · subst h; simp [State.onCtl, State.session]
  · simp [State.onCtl, State.session, h]
@[simp] theorem State.onCtl_engine (s : State) (p : Port) (f : PortController → PortController) (q : Port) :
    (s.onCtl p f).engine q = s.engine q := by
  by_cases h : q = p
  · subst h; simp [State.onCtl, State.engine]
  · simp [State.onCtl, State.engine, h]
@[simp] theorem State.onCtl_ctl_same (s : State) (p : Port) (f : PortController → PortController) : (s.onCtl p f).ctl p = f (s.ctl p) := by
  simp [State.onCtl, State.ctl]
@[simp] theorem State.onCtl_ctl_ne (s : State) {p q : Port} (f : PortController → PortController) (h : q ≠ p) :
    (s.onCtl p f).ctl q = s.ctl q := by
  simp [State.onCtl, State.ctl, h]
@[simp] theorem State.onCtl_stream (s : State) (p : Port) (f : PortController → PortController) (q : Port) :
    (s.onCtl p f).stream q = s.stream q := by
  by_cases h : q = p
  · subst h; simp [State.onCtl, State.stream]
  · simp [State.onCtl, State.stream, h]
@[simp] theorem State.onCtl_inlet (s : State) (p : Port) (f : PortController → PortController) (q : Port) (i : Fin 16) :
    (s.onCtl p f).inlet q i = s.inlet q i := by
  by_cases h : q = p
  · subst h; simp [State.onCtl, State.inlet]
  · simp [State.onCtl, State.inlet, h]
@[simp] theorem State.onCtl_lane (s : State) (p : Port) (f : PortController → PortController) (q : Port) (i : Fin 4) :
    (s.onCtl p f).lane q i = s.lane q i := by
  by_cases h : q = p
  · subst h; simp [State.onCtl, State.lane]
  · simp [State.onCtl, State.lane, h]
@[simp] theorem State.onCtl_route (s : State) (p : Port) (f : PortController → PortController) (q : Port) (i : Fin 63) :
    (s.onCtl p f).route q i = s.route q i := by
  by_cases h : q = p
  · subst h; simp [State.onCtl, State.route]
  · simp [State.onCtl, State.route, h]
@[simp] theorem State.onCtl_grant (s : State) (p : Port) (f : PortController → PortController) (q : Port) (i : Fin 8) :
    (s.onCtl p f).grant q i = s.grant q i := by
  by_cases h : q = p
  · subst h; simp [State.onCtl, State.grant]
  · simp [State.onCtl, State.grant, h]

/-! ### `setStream` -/

@[simp] theorem State.setStream_rstnLow (s : State) (p : Port) (x : Option Stream) : (s.setStream p x).rstnLow = s.rstnLow := rfl
@[simp] theorem State.setStream_controller (s : State) (p : Port) (x : Option Stream) : (s.setStream p x).controller = s.controller := rfl
@[simp] theorem State.setStream_supervisor (s : State) (p : Port) (x : Option Stream) : (s.setStream p x).supervisor = s.supervisor := rfl
@[simp] theorem State.setStream_pendingReset (s : State) (p : Port) (x : Option Stream) : (s.setStream p x).pendingReset = s.pendingReset := rfl
@[simp] theorem State.setStream_config (s : State) (p : Port) (x : Option Stream) : (s.setStream p x).config = s.config := rfl
@[simp] theorem State.setStream_store (s : State) (p : Port) (x : Option Stream) : (s.setStream p x).store = s.store := rfl
@[simp] theorem State.setStream_families (s : State) (p : Port) (x : Option Stream) : (s.setStream p x).families = s.families := rfl
@[simp] theorem State.setStream_windows (s : State) (p : Port) (x : Option Stream) : (s.setStream p x).windows = s.windows := rfl
@[simp] theorem State.setStream_bulk (s : State) (p : Port) (x : Option Stream) : (s.setStream p x).bulk = s.bulk := rfl
@[simp] theorem State.setStream_pending (s : State) (p : Port) (x : Option Stream) : (s.setStream p x).pending = s.pending := rfl
@[simp] theorem State.setStream_family (s : State) (p : Port) (x : Option Stream) (n : Fin 256) : (s.setStream p x).family n = s.family n := rfl
@[simp] theorem State.setStream_window (s : State) (p : Port) (x : Option Stream) (n : Fin 32) : (s.setStream p x).window n = s.window n := rfl
@[simp] theorem State.setStream_settings (s : State) (p : Port) (x : Option Stream) (q : Port) : (s.setStream p x).settings q = s.settings q := rfl
@[simp] theorem State.setStream_session (s : State) (p : Port) (x : Option Stream) (q : Port) :
    (s.setStream p x).session q = s.session q := by
  by_cases h : q = p
  · subst h; simp [State.setStream, State.session]
  · simp [State.setStream, State.session, h]
@[simp] theorem State.setStream_engine (s : State) (p : Port) (x : Option Stream) (q : Port) :
    (s.setStream p x).engine q = s.engine q := by
  by_cases h : q = p
  · subst h; simp [State.setStream, State.engine]
  · simp [State.setStream, State.engine, h]
@[simp] theorem State.setStream_ctl (s : State) (p : Port) (x : Option Stream) (q : Port) :
    (s.setStream p x).ctl q = s.ctl q := by
  by_cases h : q = p
  · subst h; simp [State.setStream, State.ctl]
  · simp [State.setStream, State.ctl, h]
@[simp] theorem State.setStream_stream_same (s : State) (p : Port) (x : Option Stream) : (s.setStream p x).stream p = x := by
  simp [State.setStream, State.stream]
@[simp] theorem State.setStream_stream_ne (s : State) {p q : Port} (x : Option Stream) (h : q ≠ p) :
    (s.setStream p x).stream q = s.stream q := by
  simp [State.setStream, State.stream, h]
@[simp] theorem State.setStream_inlet (s : State) (p : Port) (x : Option Stream) (q : Port) (i : Fin 16) :
    (s.setStream p x).inlet q i = s.inlet q i := by
  by_cases h : q = p
  · subst h; simp [State.setStream, State.inlet]
  · simp [State.setStream, State.inlet, h]
@[simp] theorem State.setStream_lane (s : State) (p : Port) (x : Option Stream) (q : Port) (i : Fin 4) :
    (s.setStream p x).lane q i = s.lane q i := by
  by_cases h : q = p
  · subst h; simp [State.setStream, State.lane]
  · simp [State.setStream, State.lane, h]
@[simp] theorem State.setStream_route (s : State) (p : Port) (x : Option Stream) (q : Port) (i : Fin 63) :
    (s.setStream p x).route q i = s.route q i := by
  by_cases h : q = p
  · subst h; simp [State.setStream, State.route]
  · simp [State.setStream, State.route, h]
@[simp] theorem State.setStream_grant (s : State) (p : Port) (x : Option Stream) (q : Port) (i : Fin 8) :
    (s.setStream p x).grant q i = s.grant q i := by
  by_cases h : q = p
  · subst h; simp [State.setStream, State.grant]
  · simp [State.setStream, State.grant, h]

/-! ### `onInlet` -/

@[simp] theorem State.onInlet_rstnLow (s : State) (p : Port) (j : Fin 16) (f : Inlet → Inlet) : (s.onInlet p j f).rstnLow = s.rstnLow := rfl
@[simp] theorem State.onInlet_controller (s : State) (p : Port) (j : Fin 16) (f : Inlet → Inlet) : (s.onInlet p j f).controller = s.controller := rfl
@[simp] theorem State.onInlet_supervisor (s : State) (p : Port) (j : Fin 16) (f : Inlet → Inlet) : (s.onInlet p j f).supervisor = s.supervisor := rfl
@[simp] theorem State.onInlet_pendingReset (s : State) (p : Port) (j : Fin 16) (f : Inlet → Inlet) : (s.onInlet p j f).pendingReset = s.pendingReset := rfl
@[simp] theorem State.onInlet_config (s : State) (p : Port) (j : Fin 16) (f : Inlet → Inlet) : (s.onInlet p j f).config = s.config := rfl
@[simp] theorem State.onInlet_store (s : State) (p : Port) (j : Fin 16) (f : Inlet → Inlet) : (s.onInlet p j f).store = s.store := rfl
@[simp] theorem State.onInlet_families (s : State) (p : Port) (j : Fin 16) (f : Inlet → Inlet) : (s.onInlet p j f).families = s.families := rfl
@[simp] theorem State.onInlet_windows (s : State) (p : Port) (j : Fin 16) (f : Inlet → Inlet) : (s.onInlet p j f).windows = s.windows := rfl
@[simp] theorem State.onInlet_bulk (s : State) (p : Port) (j : Fin 16) (f : Inlet → Inlet) : (s.onInlet p j f).bulk = s.bulk := rfl
@[simp] theorem State.onInlet_pending (s : State) (p : Port) (j : Fin 16) (f : Inlet → Inlet) : (s.onInlet p j f).pending = s.pending := rfl
@[simp] theorem State.onInlet_family (s : State) (p : Port) (j : Fin 16) (f : Inlet → Inlet) (n : Fin 256) : (s.onInlet p j f).family n = s.family n := rfl
@[simp] theorem State.onInlet_window (s : State) (p : Port) (j : Fin 16) (f : Inlet → Inlet) (n : Fin 32) : (s.onInlet p j f).window n = s.window n := rfl
@[simp] theorem State.onInlet_settings (s : State) (p : Port) (j : Fin 16) (f : Inlet → Inlet) (q : Port) : (s.onInlet p j f).settings q = s.settings q := rfl
@[simp] theorem State.onInlet_session (s : State) (p : Port) (j : Fin 16) (f : Inlet → Inlet) (q : Port) :
    (s.onInlet p j f).session q = s.session q := by
  by_cases h : q = p
  · subst h; simp [State.onInlet, State.session]
  · simp [State.onInlet, State.session, h]
@[simp] theorem State.onInlet_engine (s : State) (p : Port) (j : Fin 16) (f : Inlet → Inlet) (q : Port) :
    (s.onInlet p j f).engine q = s.engine q := by
  by_cases h : q = p
  · subst h; simp [State.onInlet, State.engine]
  · simp [State.onInlet, State.engine, h]
@[simp] theorem State.onInlet_ctl (s : State) (p : Port) (j : Fin 16) (f : Inlet → Inlet) (q : Port) :
    (s.onInlet p j f).ctl q = s.ctl q := by
  by_cases h : q = p
  · subst h; simp [State.onInlet, State.ctl]
  · simp [State.onInlet, State.ctl, h]
@[simp] theorem State.onInlet_stream (s : State) (p : Port) (j : Fin 16) (f : Inlet → Inlet) (q : Port) :
    (s.onInlet p j f).stream q = s.stream q := by
  by_cases h : q = p
  · subst h; simp [State.onInlet, State.stream]
  · simp [State.onInlet, State.stream, h]
@[simp] theorem State.onInlet_inlet_same (s : State) (p : Port) (j : Fin 16) (f : Inlet → Inlet) : (s.onInlet p j f).inlet p j = f (s.inlet p j) := by
  simp [State.onInlet, State.inlet]
@[simp] theorem State.onInlet_inlet_ne (s : State) {p q : Port} (j : Fin 16) (f : Inlet → Inlet) (i : Fin 16) (h : q ≠ p) :
    (s.onInlet p j f).inlet q i = s.inlet q i := by
  simp [State.onInlet, State.inlet, h]
@[simp] theorem State.onInlet_inlet_other (s : State) (p q : Port) {j i : Fin 16} (f : Inlet → Inlet) (h : i ≠ j) :
    (s.onInlet p j f).inlet q i = s.inlet q i := by
  by_cases e : q = p
  · subst e; simp [State.onInlet, State.inlet, h]
  · simp [State.onInlet, State.inlet, e]
@[simp] theorem State.onInlet_lane (s : State) (p : Port) (j : Fin 16) (f : Inlet → Inlet) (q : Port) (i : Fin 4) :
    (s.onInlet p j f).lane q i = s.lane q i := by
  by_cases h : q = p
  · subst h; simp [State.onInlet, State.lane]
  · simp [State.onInlet, State.lane, h]
@[simp] theorem State.onInlet_route (s : State) (p : Port) (j : Fin 16) (f : Inlet → Inlet) (q : Port) (i : Fin 63) :
    (s.onInlet p j f).route q i = s.route q i := by
  by_cases h : q = p
  · subst h; simp [State.onInlet, State.route]
  · simp [State.onInlet, State.route, h]
@[simp] theorem State.onInlet_grant (s : State) (p : Port) (j : Fin 16) (f : Inlet → Inlet) (q : Port) (i : Fin 8) :
    (s.onInlet p j f).grant q i = s.grant q i := by
  by_cases h : q = p
  · subst h; simp [State.onInlet, State.grant]
  · simp [State.onInlet, State.grant, h]

/-! ### `onLane` -/

@[simp] theorem State.onLane_rstnLow (s : State) (p : Port) (j : Fin 4) (f : Lane → Lane) : (s.onLane p j f).rstnLow = s.rstnLow := rfl
@[simp] theorem State.onLane_controller (s : State) (p : Port) (j : Fin 4) (f : Lane → Lane) : (s.onLane p j f).controller = s.controller := rfl
@[simp] theorem State.onLane_supervisor (s : State) (p : Port) (j : Fin 4) (f : Lane → Lane) : (s.onLane p j f).supervisor = s.supervisor := rfl
@[simp] theorem State.onLane_pendingReset (s : State) (p : Port) (j : Fin 4) (f : Lane → Lane) : (s.onLane p j f).pendingReset = s.pendingReset := rfl
@[simp] theorem State.onLane_config (s : State) (p : Port) (j : Fin 4) (f : Lane → Lane) : (s.onLane p j f).config = s.config := rfl
@[simp] theorem State.onLane_store (s : State) (p : Port) (j : Fin 4) (f : Lane → Lane) : (s.onLane p j f).store = s.store := rfl
@[simp] theorem State.onLane_families (s : State) (p : Port) (j : Fin 4) (f : Lane → Lane) : (s.onLane p j f).families = s.families := rfl
@[simp] theorem State.onLane_windows (s : State) (p : Port) (j : Fin 4) (f : Lane → Lane) : (s.onLane p j f).windows = s.windows := rfl
@[simp] theorem State.onLane_bulk (s : State) (p : Port) (j : Fin 4) (f : Lane → Lane) : (s.onLane p j f).bulk = s.bulk := rfl
@[simp] theorem State.onLane_pending (s : State) (p : Port) (j : Fin 4) (f : Lane → Lane) : (s.onLane p j f).pending = s.pending := rfl
@[simp] theorem State.onLane_family (s : State) (p : Port) (j : Fin 4) (f : Lane → Lane) (n : Fin 256) : (s.onLane p j f).family n = s.family n := rfl
@[simp] theorem State.onLane_window (s : State) (p : Port) (j : Fin 4) (f : Lane → Lane) (n : Fin 32) : (s.onLane p j f).window n = s.window n := rfl
@[simp] theorem State.onLane_settings (s : State) (p : Port) (j : Fin 4) (f : Lane → Lane) (q : Port) : (s.onLane p j f).settings q = s.settings q := rfl
@[simp] theorem State.onLane_session (s : State) (p : Port) (j : Fin 4) (f : Lane → Lane) (q : Port) :
    (s.onLane p j f).session q = s.session q := by
  by_cases h : q = p
  · subst h; simp [State.onLane, State.session]
  · simp [State.onLane, State.session, h]
@[simp] theorem State.onLane_engine (s : State) (p : Port) (j : Fin 4) (f : Lane → Lane) (q : Port) :
    (s.onLane p j f).engine q = s.engine q := by
  by_cases h : q = p
  · subst h; simp [State.onLane, State.engine]
  · simp [State.onLane, State.engine, h]
@[simp] theorem State.onLane_ctl (s : State) (p : Port) (j : Fin 4) (f : Lane → Lane) (q : Port) :
    (s.onLane p j f).ctl q = s.ctl q := by
  by_cases h : q = p
  · subst h; simp [State.onLane, State.ctl]
  · simp [State.onLane, State.ctl, h]
@[simp] theorem State.onLane_stream (s : State) (p : Port) (j : Fin 4) (f : Lane → Lane) (q : Port) :
    (s.onLane p j f).stream q = s.stream q := by
  by_cases h : q = p
  · subst h; simp [State.onLane, State.stream]
  · simp [State.onLane, State.stream, h]
@[simp] theorem State.onLane_inlet (s : State) (p : Port) (j : Fin 4) (f : Lane → Lane) (q : Port) (i : Fin 16) :
    (s.onLane p j f).inlet q i = s.inlet q i := by
  by_cases h : q = p
  · subst h; simp [State.onLane, State.inlet]
  · simp [State.onLane, State.inlet, h]
@[simp] theorem State.onLane_lane_same (s : State) (p : Port) (j : Fin 4) (f : Lane → Lane) : (s.onLane p j f).lane p j = f (s.lane p j) := by
  simp [State.onLane, State.lane]
@[simp] theorem State.onLane_lane_ne (s : State) {p q : Port} (j : Fin 4) (f : Lane → Lane) (i : Fin 4) (h : q ≠ p) :
    (s.onLane p j f).lane q i = s.lane q i := by
  simp [State.onLane, State.lane, h]
@[simp] theorem State.onLane_lane_other (s : State) (p q : Port) {j i : Fin 4} (f : Lane → Lane) (h : i ≠ j) :
    (s.onLane p j f).lane q i = s.lane q i := by
  by_cases e : q = p
  · subst e; simp [State.onLane, State.lane, h]
  · simp [State.onLane, State.lane, e]
@[simp] theorem State.onLane_route (s : State) (p : Port) (j : Fin 4) (f : Lane → Lane) (q : Port) (i : Fin 63) :
    (s.onLane p j f).route q i = s.route q i := by
  by_cases h : q = p
  · subst h; simp [State.onLane, State.route]
  · simp [State.onLane, State.route, h]
@[simp] theorem State.onLane_grant (s : State) (p : Port) (j : Fin 4) (f : Lane → Lane) (q : Port) (i : Fin 8) :
    (s.onLane p j f).grant q i = s.grant q i := by
  by_cases h : q = p
  · subst h; simp [State.onLane, State.grant]
  · simp [State.onLane, State.grant, h]

/-! ### `setRoute` -/

@[simp] theorem State.setRoute_rstnLow (s : State) (p : Port) (j : Fin 63) (x : Option RouteCopy) : (s.setRoute p j x).rstnLow = s.rstnLow := rfl
@[simp] theorem State.setRoute_controller (s : State) (p : Port) (j : Fin 63) (x : Option RouteCopy) : (s.setRoute p j x).controller = s.controller := rfl
@[simp] theorem State.setRoute_supervisor (s : State) (p : Port) (j : Fin 63) (x : Option RouteCopy) : (s.setRoute p j x).supervisor = s.supervisor := rfl
@[simp] theorem State.setRoute_pendingReset (s : State) (p : Port) (j : Fin 63) (x : Option RouteCopy) : (s.setRoute p j x).pendingReset = s.pendingReset := rfl
@[simp] theorem State.setRoute_config (s : State) (p : Port) (j : Fin 63) (x : Option RouteCopy) : (s.setRoute p j x).config = s.config := rfl
@[simp] theorem State.setRoute_store (s : State) (p : Port) (j : Fin 63) (x : Option RouteCopy) : (s.setRoute p j x).store = s.store := rfl
@[simp] theorem State.setRoute_families (s : State) (p : Port) (j : Fin 63) (x : Option RouteCopy) : (s.setRoute p j x).families = s.families := rfl
@[simp] theorem State.setRoute_windows (s : State) (p : Port) (j : Fin 63) (x : Option RouteCopy) : (s.setRoute p j x).windows = s.windows := rfl
@[simp] theorem State.setRoute_bulk (s : State) (p : Port) (j : Fin 63) (x : Option RouteCopy) : (s.setRoute p j x).bulk = s.bulk := rfl
@[simp] theorem State.setRoute_pending (s : State) (p : Port) (j : Fin 63) (x : Option RouteCopy) : (s.setRoute p j x).pending = s.pending := rfl
@[simp] theorem State.setRoute_family (s : State) (p : Port) (j : Fin 63) (x : Option RouteCopy) (n : Fin 256) : (s.setRoute p j x).family n = s.family n := rfl
@[simp] theorem State.setRoute_window (s : State) (p : Port) (j : Fin 63) (x : Option RouteCopy) (n : Fin 32) : (s.setRoute p j x).window n = s.window n := rfl
@[simp] theorem State.setRoute_settings (s : State) (p : Port) (j : Fin 63) (x : Option RouteCopy) (q : Port) : (s.setRoute p j x).settings q = s.settings q := rfl
@[simp] theorem State.setRoute_session (s : State) (p : Port) (j : Fin 63) (x : Option RouteCopy) (q : Port) :
    (s.setRoute p j x).session q = s.session q := by
  by_cases h : q = p
  · subst h; simp [State.setRoute, State.session]
  · simp [State.setRoute, State.session, h]
@[simp] theorem State.setRoute_engine (s : State) (p : Port) (j : Fin 63) (x : Option RouteCopy) (q : Port) :
    (s.setRoute p j x).engine q = s.engine q := by
  by_cases h : q = p
  · subst h; simp [State.setRoute, State.engine]
  · simp [State.setRoute, State.engine, h]
@[simp] theorem State.setRoute_ctl (s : State) (p : Port) (j : Fin 63) (x : Option RouteCopy) (q : Port) :
    (s.setRoute p j x).ctl q = s.ctl q := by
  by_cases h : q = p
  · subst h; simp [State.setRoute, State.ctl]
  · simp [State.setRoute, State.ctl, h]
@[simp] theorem State.setRoute_stream (s : State) (p : Port) (j : Fin 63) (x : Option RouteCopy) (q : Port) :
    (s.setRoute p j x).stream q = s.stream q := by
  by_cases h : q = p
  · subst h; simp [State.setRoute, State.stream]
  · simp [State.setRoute, State.stream, h]
@[simp] theorem State.setRoute_inlet (s : State) (p : Port) (j : Fin 63) (x : Option RouteCopy) (q : Port) (i : Fin 16) :
    (s.setRoute p j x).inlet q i = s.inlet q i := by
  by_cases h : q = p
  · subst h; simp [State.setRoute, State.inlet]
  · simp [State.setRoute, State.inlet, h]
@[simp] theorem State.setRoute_lane (s : State) (p : Port) (j : Fin 63) (x : Option RouteCopy) (q : Port) (i : Fin 4) :
    (s.setRoute p j x).lane q i = s.lane q i := by
  by_cases h : q = p
  · subst h; simp [State.setRoute, State.lane]
  · simp [State.setRoute, State.lane, h]
@[simp] theorem State.setRoute_route_same (s : State) (p : Port) (j : Fin 63) (x : Option RouteCopy) : (s.setRoute p j x).route p j = x := by
  simp [State.setRoute, State.route]
@[simp] theorem State.setRoute_route_ne (s : State) {p q : Port} (j : Fin 63) (x : Option RouteCopy) (i : Fin 63) (h : q ≠ p) :
    (s.setRoute p j x).route q i = s.route q i := by
  simp [State.setRoute, State.route, h]
@[simp] theorem State.setRoute_route_other (s : State) (p q : Port) {j i : Fin 63} (x : Option RouteCopy) (h : i ≠ j) :
    (s.setRoute p j x).route q i = s.route q i := by
  by_cases e : q = p
  · subst e; simp [State.setRoute, State.route, h]
  · simp [State.setRoute, State.route, e]
@[simp] theorem State.setRoute_grant (s : State) (p : Port) (j : Fin 63) (x : Option RouteCopy) (q : Port) (i : Fin 8) :
    (s.setRoute p j x).grant q i = s.grant q i := by
  by_cases h : q = p
  · subst h; simp [State.setRoute, State.grant]
  · simp [State.setRoute, State.grant, h]

/-! ### `setGrant` -/

@[simp] theorem State.setGrant_rstnLow (s : State) (p : Port) (j : Fin 8) (x : Option Grant) : (s.setGrant p j x).rstnLow = s.rstnLow := rfl
@[simp] theorem State.setGrant_controller (s : State) (p : Port) (j : Fin 8) (x : Option Grant) : (s.setGrant p j x).controller = s.controller := rfl
@[simp] theorem State.setGrant_supervisor (s : State) (p : Port) (j : Fin 8) (x : Option Grant) : (s.setGrant p j x).supervisor = s.supervisor := rfl
@[simp] theorem State.setGrant_pendingReset (s : State) (p : Port) (j : Fin 8) (x : Option Grant) : (s.setGrant p j x).pendingReset = s.pendingReset := rfl
@[simp] theorem State.setGrant_config (s : State) (p : Port) (j : Fin 8) (x : Option Grant) : (s.setGrant p j x).config = s.config := rfl
@[simp] theorem State.setGrant_store (s : State) (p : Port) (j : Fin 8) (x : Option Grant) : (s.setGrant p j x).store = s.store := rfl
@[simp] theorem State.setGrant_families (s : State) (p : Port) (j : Fin 8) (x : Option Grant) : (s.setGrant p j x).families = s.families := rfl
@[simp] theorem State.setGrant_windows (s : State) (p : Port) (j : Fin 8) (x : Option Grant) : (s.setGrant p j x).windows = s.windows := rfl
@[simp] theorem State.setGrant_bulk (s : State) (p : Port) (j : Fin 8) (x : Option Grant) : (s.setGrant p j x).bulk = s.bulk := rfl
@[simp] theorem State.setGrant_pending (s : State) (p : Port) (j : Fin 8) (x : Option Grant) : (s.setGrant p j x).pending = s.pending := rfl
@[simp] theorem State.setGrant_family (s : State) (p : Port) (j : Fin 8) (x : Option Grant) (n : Fin 256) : (s.setGrant p j x).family n = s.family n := rfl
@[simp] theorem State.setGrant_window (s : State) (p : Port) (j : Fin 8) (x : Option Grant) (n : Fin 32) : (s.setGrant p j x).window n = s.window n := rfl
@[simp] theorem State.setGrant_settings (s : State) (p : Port) (j : Fin 8) (x : Option Grant) (q : Port) : (s.setGrant p j x).settings q = s.settings q := rfl
@[simp] theorem State.setGrant_session (s : State) (p : Port) (j : Fin 8) (x : Option Grant) (q : Port) :
    (s.setGrant p j x).session q = s.session q := by
  by_cases h : q = p
  · subst h; simp [State.setGrant, State.session]
  · simp [State.setGrant, State.session, h]
@[simp] theorem State.setGrant_engine (s : State) (p : Port) (j : Fin 8) (x : Option Grant) (q : Port) :
    (s.setGrant p j x).engine q = s.engine q := by
  by_cases h : q = p
  · subst h; simp [State.setGrant, State.engine]
  · simp [State.setGrant, State.engine, h]
@[simp] theorem State.setGrant_ctl (s : State) (p : Port) (j : Fin 8) (x : Option Grant) (q : Port) :
    (s.setGrant p j x).ctl q = s.ctl q := by
  by_cases h : q = p
  · subst h; simp [State.setGrant, State.ctl]
  · simp [State.setGrant, State.ctl, h]
@[simp] theorem State.setGrant_stream (s : State) (p : Port) (j : Fin 8) (x : Option Grant) (q : Port) :
    (s.setGrant p j x).stream q = s.stream q := by
  by_cases h : q = p
  · subst h; simp [State.setGrant, State.stream]
  · simp [State.setGrant, State.stream, h]
@[simp] theorem State.setGrant_inlet (s : State) (p : Port) (j : Fin 8) (x : Option Grant) (q : Port) (i : Fin 16) :
    (s.setGrant p j x).inlet q i = s.inlet q i := by
  by_cases h : q = p
  · subst h; simp [State.setGrant, State.inlet]
  · simp [State.setGrant, State.inlet, h]
@[simp] theorem State.setGrant_lane (s : State) (p : Port) (j : Fin 8) (x : Option Grant) (q : Port) (i : Fin 4) :
    (s.setGrant p j x).lane q i = s.lane q i := by
  by_cases h : q = p
  · subst h; simp [State.setGrant, State.lane]
  · simp [State.setGrant, State.lane, h]
@[simp] theorem State.setGrant_route (s : State) (p : Port) (j : Fin 8) (x : Option Grant) (q : Port) (i : Fin 63) :
    (s.setGrant p j x).route q i = s.route q i := by
  by_cases h : q = p
  · subst h; simp [State.setGrant, State.route]
  · simp [State.setGrant, State.route, h]
@[simp] theorem State.setGrant_grant_same (s : State) (p : Port) (j : Fin 8) (x : Option Grant) : (s.setGrant p j x).grant p j = x := by
  simp [State.setGrant, State.grant]
@[simp] theorem State.setGrant_grant_ne (s : State) {p q : Port} (j : Fin 8) (x : Option Grant) (i : Fin 8) (h : q ≠ p) :
    (s.setGrant p j x).grant q i = s.grant q i := by
  simp [State.setGrant, State.grant, h]
@[simp] theorem State.setGrant_grant_other (s : State) (p q : Port) {j i : Fin 8} (x : Option Grant) (h : i ≠ j) :
    (s.setGrant p j x).grant q i = s.grant q i := by
  by_cases e : q = p
  · subst e; simp [State.setGrant, State.grant, h]
  · simp [State.setGrant, State.grant, e]

/-! ### `setFamily` -/

@[simp] theorem State.setFamily_rstnLow (s : State) (f : Fin 256) (x : Option Family) : (s.setFamily f x).rstnLow = s.rstnLow := rfl
@[simp] theorem State.setFamily_controller (s : State) (f : Fin 256) (x : Option Family) : (s.setFamily f x).controller = s.controller := rfl
@[simp] theorem State.setFamily_supervisor (s : State) (f : Fin 256) (x : Option Family) : (s.setFamily f x).supervisor = s.supervisor := rfl
@[simp] theorem State.setFamily_pendingReset (s : State) (f : Fin 256) (x : Option Family) : (s.setFamily f x).pendingReset = s.pendingReset := rfl
@[simp] theorem State.setFamily_config (s : State) (f : Fin 256) (x : Option Family) : (s.setFamily f x).config = s.config := rfl
@[simp] theorem State.setFamily_store (s : State) (f : Fin 256) (x : Option Family) : (s.setFamily f x).store = s.store := rfl
@[simp] theorem State.setFamily_windows (s : State) (f : Fin 256) (x : Option Family) : (s.setFamily f x).windows = s.windows := rfl
@[simp] theorem State.setFamily_bulk (s : State) (f : Fin 256) (x : Option Family) : (s.setFamily f x).bulk = s.bulk := rfl
@[simp] theorem State.setFamily_pending (s : State) (f : Fin 256) (x : Option Family) : (s.setFamily f x).pending = s.pending := rfl
@[simp] theorem State.setFamily_col (s : State) (f : Fin 256) (x : Option Family) (q : Port) : (s.setFamily f x).col q = s.col q := rfl
@[simp] theorem State.setFamily_session (s : State) (f : Fin 256) (x : Option Family) (q : Port) : (s.setFamily f x).session q = s.session q := rfl
@[simp] theorem State.setFamily_engine (s : State) (f : Fin 256) (x : Option Family) (q : Port) : (s.setFamily f x).engine q = s.engine q := rfl
@[simp] theorem State.setFamily_ctl (s : State) (f : Fin 256) (x : Option Family) (q : Port) : (s.setFamily f x).ctl q = s.ctl q := rfl
@[simp] theorem State.setFamily_stream (s : State) (f : Fin 256) (x : Option Family) (q : Port) : (s.setFamily f x).stream q = s.stream q := rfl
@[simp] theorem State.setFamily_inlet (s : State) (f : Fin 256) (x : Option Family) (q : Port) (i : Fin 16) : (s.setFamily f x).inlet q i = s.inlet q i := rfl
@[simp] theorem State.setFamily_lane (s : State) (f : Fin 256) (x : Option Family) (q : Port) (i : Fin 4) : (s.setFamily f x).lane q i = s.lane q i := rfl
@[simp] theorem State.setFamily_route (s : State) (f : Fin 256) (x : Option Family) (q : Port) (i : Fin 63) : (s.setFamily f x).route q i = s.route q i := rfl
@[simp] theorem State.setFamily_grant (s : State) (f : Fin 256) (x : Option Family) (q : Port) (i : Fin 8) : (s.setFamily f x).grant q i = s.grant q i := rfl
@[simp] theorem State.setFamily_settings (s : State) (f : Fin 256) (x : Option Family) (q : Port) : (s.setFamily f x).settings q = s.settings q := rfl
@[simp] theorem State.setFamily_window (s : State) (f : Fin 256) (x : Option Family) (n : Fin 32) : (s.setFamily f x).window n = s.window n := rfl
@[simp] theorem State.setFamily_family_same (s : State) (f : Fin 256) (x : Option Family) : (s.setFamily f x).family f = x := by
  simp [State.setFamily, State.family]
@[simp] theorem State.setFamily_family_ne (s : State) (f : Fin 256) (x : Option Family) {g : Fin 256} (h : g ≠ f) : (s.setFamily f x).family g = s.family g := by
  simp [State.setFamily, State.family, h]

/-! ### `setWindow` -/

@[simp] theorem State.setWindow_rstnLow (s : State) (f : Fin 32) (x : Option Window) : (s.setWindow f x).rstnLow = s.rstnLow := rfl
@[simp] theorem State.setWindow_controller (s : State) (f : Fin 32) (x : Option Window) : (s.setWindow f x).controller = s.controller := rfl
@[simp] theorem State.setWindow_supervisor (s : State) (f : Fin 32) (x : Option Window) : (s.setWindow f x).supervisor = s.supervisor := rfl
@[simp] theorem State.setWindow_pendingReset (s : State) (f : Fin 32) (x : Option Window) : (s.setWindow f x).pendingReset = s.pendingReset := rfl
@[simp] theorem State.setWindow_config (s : State) (f : Fin 32) (x : Option Window) : (s.setWindow f x).config = s.config := rfl
@[simp] theorem State.setWindow_store (s : State) (f : Fin 32) (x : Option Window) : (s.setWindow f x).store = s.store := rfl
@[simp] theorem State.setWindow_families (s : State) (f : Fin 32) (x : Option Window) : (s.setWindow f x).families = s.families := rfl
@[simp] theorem State.setWindow_bulk (s : State) (f : Fin 32) (x : Option Window) : (s.setWindow f x).bulk = s.bulk := rfl
@[simp] theorem State.setWindow_pending (s : State) (f : Fin 32) (x : Option Window) : (s.setWindow f x).pending = s.pending := rfl
@[simp] theorem State.setWindow_col (s : State) (f : Fin 32) (x : Option Window) (q : Port) : (s.setWindow f x).col q = s.col q := rfl
@[simp] theorem State.setWindow_session (s : State) (f : Fin 32) (x : Option Window) (q : Port) : (s.setWindow f x).session q = s.session q := rfl
@[simp] theorem State.setWindow_engine (s : State) (f : Fin 32) (x : Option Window) (q : Port) : (s.setWindow f x).engine q = s.engine q := rfl
@[simp] theorem State.setWindow_ctl (s : State) (f : Fin 32) (x : Option Window) (q : Port) : (s.setWindow f x).ctl q = s.ctl q := rfl
@[simp] theorem State.setWindow_stream (s : State) (f : Fin 32) (x : Option Window) (q : Port) : (s.setWindow f x).stream q = s.stream q := rfl
@[simp] theorem State.setWindow_inlet (s : State) (f : Fin 32) (x : Option Window) (q : Port) (i : Fin 16) : (s.setWindow f x).inlet q i = s.inlet q i := rfl
@[simp] theorem State.setWindow_lane (s : State) (f : Fin 32) (x : Option Window) (q : Port) (i : Fin 4) : (s.setWindow f x).lane q i = s.lane q i := rfl
@[simp] theorem State.setWindow_route (s : State) (f : Fin 32) (x : Option Window) (q : Port) (i : Fin 63) : (s.setWindow f x).route q i = s.route q i := rfl
@[simp] theorem State.setWindow_grant (s : State) (f : Fin 32) (x : Option Window) (q : Port) (i : Fin 8) : (s.setWindow f x).grant q i = s.grant q i := rfl
@[simp] theorem State.setWindow_settings (s : State) (f : Fin 32) (x : Option Window) (q : Port) : (s.setWindow f x).settings q = s.settings q := rfl
@[simp] theorem State.setWindow_family (s : State) (f : Fin 32) (x : Option Window) (n : Fin 256) : (s.setWindow f x).family n = s.family n := rfl
@[simp] theorem State.setWindow_window_same (s : State) (f : Fin 32) (x : Option Window) : (s.setWindow f x).window f = x := by
  simp [State.setWindow, State.window]
@[simp] theorem State.setWindow_window_ne (s : State) (f : Fin 32) (x : Option Window) {g : Fin 32} (h : g ≠ f) : (s.setWindow f x).window g = s.window g := by
  simp [State.setWindow, State.window, h]

/-! ### `onStore` -/

@[simp] theorem State.onStore_rstnLow (s : State) (f : Store → Store) : (s.onStore f).rstnLow = s.rstnLow := rfl
@[simp] theorem State.onStore_controller (s : State) (f : Store → Store) : (s.onStore f).controller = s.controller := rfl
@[simp] theorem State.onStore_supervisor (s : State) (f : Store → Store) : (s.onStore f).supervisor = s.supervisor := rfl
@[simp] theorem State.onStore_pendingReset (s : State) (f : Store → Store) : (s.onStore f).pendingReset = s.pendingReset := rfl
@[simp] theorem State.onStore_config (s : State) (f : Store → Store) : (s.onStore f).config = s.config := rfl
@[simp] theorem State.onStore_families (s : State) (f : Store → Store) : (s.onStore f).families = s.families := rfl
@[simp] theorem State.onStore_windows (s : State) (f : Store → Store) : (s.onStore f).windows = s.windows := rfl
@[simp] theorem State.onStore_bulk (s : State) (f : Store → Store) : (s.onStore f).bulk = s.bulk := rfl
@[simp] theorem State.onStore_pending (s : State) (f : Store → Store) : (s.onStore f).pending = s.pending := rfl
@[simp] theorem State.onStore_col (s : State) (f : Store → Store) (q : Port) : (s.onStore f).col q = s.col q := rfl
@[simp] theorem State.onStore_session (s : State) (f : Store → Store) (q : Port) : (s.onStore f).session q = s.session q := rfl
@[simp] theorem State.onStore_engine (s : State) (f : Store → Store) (q : Port) : (s.onStore f).engine q = s.engine q := rfl
@[simp] theorem State.onStore_ctl (s : State) (f : Store → Store) (q : Port) : (s.onStore f).ctl q = s.ctl q := rfl
@[simp] theorem State.onStore_stream (s : State) (f : Store → Store) (q : Port) : (s.onStore f).stream q = s.stream q := rfl
@[simp] theorem State.onStore_inlet (s : State) (f : Store → Store) (q : Port) (i : Fin 16) : (s.onStore f).inlet q i = s.inlet q i := rfl
@[simp] theorem State.onStore_lane (s : State) (f : Store → Store) (q : Port) (i : Fin 4) : (s.onStore f).lane q i = s.lane q i := rfl
@[simp] theorem State.onStore_route (s : State) (f : Store → Store) (q : Port) (i : Fin 63) : (s.onStore f).route q i = s.route q i := rfl
@[simp] theorem State.onStore_grant (s : State) (f : Store → Store) (q : Port) (i : Fin 8) : (s.onStore f).grant q i = s.grant q i := rfl
@[simp] theorem State.onStore_settings (s : State) (f : Store → Store) (q : Port) : (s.onStore f).settings q = s.settings q := rfl
@[simp] theorem State.onStore_family (s : State) (f : Store → Store) (n : Fin 256) : (s.onStore f).family n = s.family n := rfl
@[simp] theorem State.onStore_window (s : State) (f : Store → Store) (n : Fin 32) : (s.onStore f).window n = s.window n := rfl
@[simp] theorem State.onStore_store (s : State) (f : Store → Store) : (s.onStore f).store = f s.store := rfl

/-! ### The attention lines following an event -/

theorem followFold_col (f : Port → Column → Column) (u : State) (q : Port) :
    ((List.finRange 8).foldl (fun s p => s.onCol p (f p)) u).col q = f q (u.col q) := by
  have e : List.finRange 8 = [0, 1, 2, 3, 4, 5, 6, 7] := by decide
  rw [e]
  fin_cases q <;> simp [List.foldl]

theorem followFold_part (f : Port → Column → Column) (u : State) (l : List Port) :
    l.foldl (fun s p => s.onCol p (f p)) u =
      { u with columns := (l.foldl (fun s p => s.onCol p (f p)) u).columns } := by
  induction l generalizing u with
  | nil => rfl
  | cons p ps ih => rw [List.foldl_cons, ih]; rfl

@[simp] theorem followAtn_col (s u : State) (q : Port) :
    (followAtn s u).col q = { u.col q with port := { u.ctl q with atn := atnNext (s.atnDrive q) (u.atnDrive q) (u.ctl q).atn } } := by
  unfold followAtn
  rw [followFold_col]
  rfl

theorem followAtn_part (s u : State) : followAtn s u = { u with columns := (followAtn s u).columns } :=
  followFold_part _ _ _

@[simp] theorem followAtn_rstnLow (s u : State) : (followAtn s u).rstnLow = u.rstnLow := by rw [followAtn_part]
@[simp] theorem followAtn_controller (s u : State) : (followAtn s u).controller = u.controller := by rw [followAtn_part]
@[simp] theorem followAtn_supervisor (s u : State) : (followAtn s u).supervisor = u.supervisor := by rw [followAtn_part]
@[simp] theorem followAtn_pendingReset (s u : State) : (followAtn s u).pendingReset = u.pendingReset := by rw [followAtn_part]
@[simp] theorem followAtn_config (s u : State) : (followAtn s u).config = u.config := by rw [followAtn_part]
@[simp] theorem followAtn_store (s u : State) : (followAtn s u).store = u.store := by rw [followAtn_part]
@[simp] theorem followAtn_families (s u : State) : (followAtn s u).families = u.families := by rw [followAtn_part]
@[simp] theorem followAtn_windows (s u : State) : (followAtn s u).windows = u.windows := by rw [followAtn_part]
@[simp] theorem followAtn_bulk (s u : State) : (followAtn s u).bulk = u.bulk := by rw [followAtn_part]
@[simp] theorem followAtn_pending (s u : State) : (followAtn s u).pending = u.pending := by rw [followAtn_part]
@[simp] theorem followAtn_family (s u : State) (n : Fin 256) : (followAtn s u).family n = u.family n := by simp [State.family]
@[simp] theorem followAtn_window (s u : State) (n : Fin 32) : (followAtn s u).window n = u.window n := by simp [State.window]
@[simp] theorem followAtn_settings (s u : State) (q : Port) : (followAtn s u).settings q = u.settings q := by simp [State.settings]
@[simp] theorem followAtn_session (s u : State) (q : Port) : (followAtn s u).session q = u.session q := by
  simp [State.session]
@[simp] theorem followAtn_engine (s u : State) (q : Port) : (followAtn s u).engine q = u.engine q := by
  simp [State.engine]
@[simp] theorem followAtn_ctl (s u : State) (q : Port) :
    (followAtn s u).ctl q = { u.ctl q with atn := atnNext (s.atnDrive q) (u.atnDrive q) (u.ctl q).atn } := by
  simp [State.ctl]
@[simp] theorem followAtn_stream (s u : State) (q : Port) : (followAtn s u).stream q = u.stream q := by
  simp [State.stream]
@[simp] theorem followAtn_inlet (s u : State) (q : Port) (i : Fin 16) : (followAtn s u).inlet q i = u.inlet q i := by
  simp [State.inlet]
@[simp] theorem followAtn_lane (s u : State) (q : Port) (i : Fin 4) : (followAtn s u).lane q i = u.lane q i := by
  simp [State.lane]
@[simp] theorem followAtn_route (s u : State) (q : Port) (i : Fin 63) : (followAtn s u).route q i = u.route q i := by
  simp [State.route]
@[simp] theorem followAtn_grant (s u : State) (q : Port) (i : Fin 8) : (followAtn s u).grant q i = u.grant q i := by
  simp [State.grant]

@[simp] theorem atnNext_same (d : AtnDrive) (a : Atn) : atnNext d d a = a := by simp [atnNext]

end Sys2Proof.Machine
end

