-- ==== Sys2Proof/Laws/Ops.lean ====
section
/-! SUPPORT. What each shared operation of Machine/Ops.lean can do, said once: bulk memory and its canonical form, the counts,
notices, revocation, the end of a message. Proofs about commands cite these in place of unfolding the operation. -/

namespace Sys2Proof.Machine

/-! ### Bulk memory -/

theorem Memory.wfFrom_mono {m : List Host.Cell} {a b : Nat} (h : a ≤ b) (w : Memory.wfFrom b m = true) :
    Memory.wfFrom a m = true := by
  cases m with
  | nil => rfl
  | cons c m =>
    simp only [Memory.wfFrom, Bool.and_eq_true, decide_eq_true_eq] at w ⊢
    exact ⟨⟨⟨by omega, w.1.1.2⟩, w.1.2⟩, w.2⟩

theorem Memory.read_below {m : List Host.Cell} {lo x : Nat} (w : Memory.wfFrom lo m = true) (h : x < lo) :
    Memory.read m x = 0 := by
  induction m generalizing lo with
  | nil => rfl
  | cons c m ih =>
    obtain ⟨a, b⟩ := c
    simp only [Memory.wfFrom, Bool.and_eq_true, decide_eq_true_eq] at w
    have e : a ≠ x := by omega
    simp only [Memory.read, e, if_false]
    exact ih w.2 (by omega)

/-- A byte written to an offset of bulk memory is what that offset then reads, in a canonical memory. -/
theorem Memory.read_write_same {m : List Host.Cell} {lo x : Nat} {v : Byte} (w : Memory.wfFrom lo m = true) :
    Memory.read (Memory.write m x v) x = v := by
  induction m generalizing lo with
  | nil =>
    simp only [Memory.write]
    split
    · next h => rw [h]; rfl
    · simp [Memory.read]
  | cons c m ih =>
    obtain ⟨a, b⟩ := c
    simp only [Memory.wfFrom, Bool.and_eq_true, decide_eq_true_eq] at w
    simp only [Memory.write]
    split
    · next h1 =>
      split
      · next h2 =>
        have e : a ≠ x := by omega
        simp only [Memory.read, e, if_false, h2]
        exact Memory.read_below w.2 (by omega)
      · simp [Memory.read]
    · split
      · next h1 h2 =>
        subst h2
        split
        · next h3 => rw [h3]; exact Memory.read_below w.2 (by omega)
        · simp [Memory.read]
      · next h1 h2 =>
        have e : a ≠ x := fun h => h2 h.symm
        simp only [Memory.read, e, if_false]
        exact ih w.2

/-- A write leaves every other offset as it was. -/
theorem Memory.read_write_ne {m : List Host.Cell} {x y : Nat} {v : Byte} (h : y ≠ x) :
    Memory.read (Memory.write m x v) y = Memory.read m y := by
  induction m with
  | nil =>
    simp only [Memory.write]
    split <;> simp [Memory.read, h.symm]
  | cons c m ih =>
    obtain ⟨a, b⟩ := c
    simp only [Memory.write]
    split
    · split <;> simp [Memory.read, h.symm]
    · split
      · next h2 =>
        subst h2
        split <;> simp [Memory.read, h.symm]
      · simp only [Memory.read, ih]

theorem Memory.wfFrom_write {m : List Host.Cell} {lo x : Nat} {v : Byte} (w : Memory.wfFrom lo m = true) (h1 : lo ≤ x)
    (h2 : x < Config.bulkBytes) : Memory.wfFrom lo (Memory.write m x v) = true := by
  induction m generalizing lo with
  | nil =>
    simp only [Memory.write]
    split
    · rfl
    · next h => simp only [Memory.wfFrom, Bool.and_eq_true, decide_eq_true_eq]; exact ⟨⟨⟨h1, h2⟩, h⟩, trivial⟩
  | cons c m ih =>
    obtain ⟨a, b⟩ := c
    have w0 := w
    simp only [Memory.wfFrom, Bool.and_eq_true, decide_eq_true_eq] at w
    simp only [Memory.write]
    split
    · next h3 =>
      split
      · exact w0
      · next h4 =>
        simp only [Memory.wfFrom, Bool.and_eq_true, decide_eq_true_eq]
        exact ⟨⟨⟨h1, h2⟩, h4⟩, ⟨⟨by omega, w.1.1.2⟩, w.1.2⟩, w.2⟩
    · split
      · next h3 h4 =>
        split
        · exact Memory.wfFrom_mono (by omega) w.2
        · next h5 =>
          subst h4
          simp only [Memory.wfFrom, Bool.and_eq_true, decide_eq_true_eq]
          exact ⟨⟨⟨h1, h2⟩, h5⟩, w.2⟩
      · next h3 h4 =>
        simp only [Memory.wfFrom, Bool.and_eq_true, decide_eq_true_eq]
        exact ⟨⟨⟨w.1.1.1, w.1.1.2⟩, w.1.2⟩, ih w.2 (by omega)⟩

/-- Every write within bulk memory keeps its one canonical form. -/
theorem Memory.wf_write {m : List Host.Cell} {x : Nat} {v : Byte} (w : Memory.wf m = true) (h : x < Config.bulkBytes) :
    Memory.wf (Memory.write m x v) = true :=
  Memory.wfFrom_write w (Nat.zero_le _) h

/-- Bulk memory after power-on is in its canonical form. -/
theorem reset_memory_canonical : State.reset.memoryCanonical := rfl

end Sys2Proof.Machine
end

