-- ==== Sys2Proof/Laws/Frames.lean ====
section
/-! SUPPORT. What the operations over messages and tables leave alone. Two relations say it once: `TablesOnly` (nothing but
slots, families, windows and the serial counter) and `NoticesApart` (Safety: nothing but notices). -/

namespace Sys2Proof.Machine

/-- `t` is `s`, apart from route slots, grant slots, families, windows and the copy-serial counter. -/
structure TablesOnly (s t : State) : Prop where
  rest : t = { s with columns := t.columns, families := t.families, windows := t.windows, store := t.store }
  store : t.store = { s.store with nextSerial := t.store.nextSerial }
  columns : ∀ q, t.col q = { s.col q with routes := (t.col q).routes, grants := (t.col q).grants }

theorem TablesOnly.refl (s : State) : TablesOnly s s := ⟨rfl, rfl, fun _ => rfl⟩

theorem TablesOnly.trans {s t u : State} (h : TablesOnly s t) (k : TablesOnly t u) : TablesOnly s u := by
  refine ⟨?_, ?_, fun q => ?_⟩
  · rw [k.rest, h.rest]
  · rw [k.store, h.store]
  · rw [k.columns q, h.columns q]

theorem TablesOnly.setRoute (s : State) (p : Port) (i : Fin 63) (x : Option RouteCopy) : TablesOnly s (s.setRoute p i x) := by
  refine ⟨rfl, rfl, fun q => ?_⟩
  by_cases h : q = p
  · subst h; simp [State.setRoute]
  · simp [State.setRoute, h]

theorem TablesOnly.setGrant (s : State) (p : Port) (i : Fin 8) (x : Option Grant) : TablesOnly s (s.setGrant p i x) := by
  refine ⟨rfl, rfl, fun q => ?_⟩
  by_cases h : q = p
  · subst h; simp [State.setGrant]
  · simp [State.setGrant, h]

theorem TablesOnly.setFamily (s : State) (f : Fin 256) (x : Option Family) : TablesOnly s (s.setFamily f x) :=
  ⟨rfl, rfl, fun _ => rfl⟩

theorem TablesOnly.setWindow (s : State) (w : Fin 32) (x : Option Window) : TablesOnly s (s.setWindow w x) :=
  ⟨rfl, rfl, fun _ => rfl⟩

theorem TablesOnly.drawSerial (s : State) : TablesOnly s s.drawSerial.2 := ⟨rfl, rfl, fun _ => rfl⟩

theorem TablesOnly.lowerFamily (s : State) (f : Fin 256) : TablesOnly s (s.lowerFamily f).1 := by
  unfold State.lowerFamily
  split
  · split <;> exact TablesOnly.setFamily _ _ _
  · exact TablesOnly.refl s

theorem TablesOnly.endCopy (s : State) (f : Fin 256) (p : Port) (r : RouteDropReason) :
    TablesOnly s (s.endCopy f p r).1 := TablesOnly.lowerFamily s f

theorem TablesOnly.lowerWindow (s : State) (w : Fin 32) : TablesOnly s (s.lowerWindow w) := by
  unfold State.lowerWindow
  split
  · split <;> exact TablesOnly.setWindow _ _ _
  · exact TablesOnly.refl s

theorem TablesOnly.raiseFamily (s : State) (f : Fin 256) : TablesOnly s (s.raiseFamily f) := by
  unfold State.raiseFamily
  split
  · exact TablesOnly.setFamily _ _ _
  · exact TablesOnly.refl s

theorem TablesOnly.raiseWindow (s : State) (w : Fin 32) : TablesOnly s (s.raiseWindow w) := by
  unfold State.raiseWindow
  split
  · exact TablesOnly.setWindow _ _ _
  · exact TablesOnly.refl s

theorem TablesOnly.revokeFamily (s : State) (f : Fin 256) : TablesOnly s (s.revokeFamily f) := by
  unfold State.revokeFamily
  split
  · refine ⟨rfl, rfl, fun q => ?_⟩
    simp [State.col, State.setFamily]
  · exact TablesOnly.refl s

theorem TablesOnly.revokeFamilies (s : State) (fs : List (Fin 256)) : TablesOnly s (s.revokeFamilies fs) := by
  unfold State.revokeFamilies
  induction fs generalizing s with
  | nil => exact TablesOnly.refl s
  | cons f fs ih => exact (TablesOnly.revokeFamily s f).trans (ih _)

theorem TablesOnly.decrement (s : State) (d : Sender) : TablesOnly s (s.decrement d) := by
  unfold State.decrement
  repeat' split
  all_goals first
    | exact TablesOnly.setRoute _ _ _ _
    | exact TablesOnly.refl s

theorem TablesOnly.endEnclosures (s : State) (p : Port) (r : RouteDropReason) (es : List Enclosure) :
    TablesOnly s (s.endEnclosures p r es).1 := by
  induction es generalizing s with
  | nil => exact TablesOnly.refl s
  | cons e es ih =>
    cases e with
    | route f m rights q st =>
      cases st with
      | inTransit => exact (TablesOnly.endCopy s f p r).trans (ih _)
      | reserved i => exact ih s
      | dropped x => exact ih s
    | grant w m rights st =>
      cases st with
      | inTransit => exact (TablesOnly.lowerWindow s w).trans (ih _)
      | reserved i => exact ih s
      | dropped x => exact ih s

theorem TablesOnly.freeReserved (s : State) (p : Port) (r : RouteDropReason) (es : List Enclosure) :
    TablesOnly s (s.freeReserved p r es).1 := by
  induction es generalizing s with
  | nil => exact TablesOnly.refl s
  | cons e es ih =>
    cases e with
    | route f m rights q st =>
      cases st with
      | reserved i =>
        exact ((TablesOnly.setRoute s p i none).trans (TablesOnly.endCopy _ f p r)).trans (ih _)
      | inTransit => exact ih s
      | dropped x => exact ih s
    | grant w m rights st =>
      cases st with
      | reserved i =>
        exact ((TablesOnly.setGrant s p i none).trans (TablesOnly.lowerWindow _ w)).trans (ih _)
      | inTransit => exact ih s
      | dropped x => exact ih s

theorem TablesOnly.settleRoute (s : State) (p : Port) (f : Fin 256) (rights : RouteRights) (quota : Nat) :
    TablesOnly s (s.settleRoute p f rights quota).2.1 := by
  unfold State.settleRoute
  split
  · split
    · exact (TablesOnly.drawSerial s).trans (TablesOnly.setRoute _ _ _ _)
    · exact TablesOnly.endCopy s f p _
  · exact TablesOnly.lowerFamily s f
  · exact TablesOnly.lowerFamily s f

theorem TablesOnly.settleGrant (s : State) (p : Port) (w : Fin 32) (rights : GrantRights) :
    TablesOnly s (s.settleGrant p w rights).2 := by
  unfold State.settleGrant
  split
  · split
    · exact TablesOnly.setGrant _ _ _ _
    · exact TablesOnly.lowerWindow s w
  · exact TablesOnly.lowerWindow s w
  · exact TablesOnly.lowerWindow s w

theorem TablesOnly.settleAll (s : State) (p : Port) (es : List Enclosure) : TablesOnly s (s.settleAll p es).2.1 := by
  induction es generalizing s with
  | nil => exact TablesOnly.refl s
  | cons e es ih =>
    cases e with
    | route f m rights q st =>
      cases st with
      | inTransit => exact (TablesOnly.settleRoute s p f rights q).trans (ih _)
      | reserved i => exact ih s
      | dropped x => exact ih s
    | grant w m rights st =>
      cases st with
      | inTransit => exact (TablesOnly.settleGrant s p w rights).trans (ih _)
      | reserved i => exact ih s
      | dropped x => exact ih s

theorem TablesOnly.installRoute (s : State) (p : Port) (d : Sender) (f : Fin 256) (m : EnclosureMode) (i : Fin 63) :
    TablesOnly s (s.installRoute p d f m i).1 := by
  unfold State.installRoute
  split
  · split <;> exact TablesOnly.setRoute _ _ _ _
  · exact TablesOnly.setRoute _ _ _ _

theorem TablesOnly.installAll (s : State) (p : Port) (d : Sender) (es : List Enclosure) :
    TablesOnly s (s.installAll p d es).1 := by
  induction es generalizing s with
  | nil => exact TablesOnly.refl s
  | cons e es ih =>
    cases e with
    | route f m rights q st =>
      cases st with
      | reserved i => exact (TablesOnly.installRoute s p d f m i).trans (ih _)
      | inTransit => exact ih s
      | dropped x => exact ih s
    | grant w m rights st =>
      cases st with
      | reserved i => exact (TablesOnly.setGrant s p i _).trans (ih _)
      | inTransit => exact ih s
      | dropped x => exact ih s

theorem TablesOnly.enclose (s : State) (p : Port) (x : Spec) : TablesOnly s (s.enclose p x).1 := by
  unfold State.enclose
  repeat' split
  all_goals first
    | exact TablesOnly.refl s
    | exact TablesOnly.setRoute _ _ _ _
    | exact TablesOnly.setGrant _ _ _ _
    | exact TablesOnly.raiseFamily _ _
    | exact TablesOnly.raiseWindow _ _

theorem TablesOnly.encloseAll (s : State) (p : Port) (xs : List Spec) : TablesOnly s (s.encloseAll p xs).1 := by
  induction xs generalizing s with
  | nil => exact TablesOnly.refl s
  | cons x xs ih => exact (TablesOnly.enclose s p x).trans (ih _)

theorem TablesOnly.mint (s : State) (p : Port) (n : Nat) (r : Option (Fin 16)) : TablesOnly s (s.mint p n r).1 := by
  unfold State.mint
  repeat' split
  all_goals first
    | exact TablesOnly.refl s
    | exact TablesOnly.setFamily _ _ _

theorem TablesOnly.charge (s : State) (p : Port) (i : Fin 63) (path : Path) : TablesOnly s (s.charge p i path) := by
  unfold State.charge
  split
  · split
    · exact TablesOnly.setRoute _ _ _ _
    · exact TablesOnly.refl s
  · exact (TablesOnly.setRoute s p i none).trans (TablesOnly.lowerFamily _ _)

/-! ### What follows from `TablesOnly` -/

theorem TablesOnly.session {s t : State} (h : TablesOnly s t) (q : Port) : t.session q = s.session q := by
  simp only [State.session]; rw [h.columns q]
theorem TablesOnly.engine {s t : State} (h : TablesOnly s t) (q : Port) : t.engine q = s.engine q := by
  simp only [State.engine]; rw [h.columns q]
theorem TablesOnly.ctl {s t : State} (h : TablesOnly s t) (q : Port) : t.ctl q = s.ctl q := by
  simp only [State.ctl]; rw [h.columns q]
theorem TablesOnly.stream {s t : State} (h : TablesOnly s t) (q : Port) : t.stream q = s.stream q := by
  simp only [State.stream]; rw [h.columns q]
theorem TablesOnly.inlet {s t : State} (h : TablesOnly s t) (q : Port) (i : Fin 16) : t.inlet q i = s.inlet q i := by
  simp only [State.inlet]; rw [h.columns q]
theorem TablesOnly.lane {s t : State} (h : TablesOnly s t) (q : Port) (l : Fin 4) : t.lane q l = s.lane q l := by
  simp only [State.lane]; rw [h.columns q]
theorem TablesOnly.config {s t : State} (h : TablesOnly s t) : t.config = s.config := by rw [h.rest]
theorem TablesOnly.bulk {s t : State} (h : TablesOnly s t) : t.bulk = s.bulk := by rw [h.rest]
theorem TablesOnly.rstnLow {s t : State} (h : TablesOnly s t) : t.rstnLow = s.rstnLow := by rw [h.rest]
theorem TablesOnly.controller {s t : State} (h : TablesOnly s t) : t.controller = s.controller := by rw [h.rest]
theorem TablesOnly.supervisor {s t : State} (h : TablesOnly s t) : t.supervisor = s.supervisor := by rw [h.rest]
theorem TablesOnly.pending {s t : State} (h : TablesOnly s t) : t.pending = s.pending := by rw [h.rest]
theorem TablesOnly.pendingReset {s t : State} (h : TablesOnly s t) : t.pendingReset = s.pendingReset := by rw [h.rest]

/-! ### Notices -/

theorem Column.noticed_self (c : Column) :
    c.noticed [] (c.inlets.get 0).refusedFull c.session.lost c.session.wakePending c.port.atn = c := by
  unfold Column.noticed
  rw [List.append_nil]
  exact congrArg (fun z => { c with inlets := z }) (Tab.put_get c.inlets 0)

theorem Column.noticed_noticed (c : Column) (n m : List Descriptor) (r l r' l' : Nat) (w w' : Bool) (a a' : Atn) :
    (c.noticed n r l w a).noticed m r' l' w' a' = c.noticed (n ++ m) r' l' w' a' := by
  simp [Column.noticed]

/-- A column to which nothing happened, as one that notices may have touched. -/
theorem Column.noticed_of_eq {c d : Column} (h : d = c) :
    d = c.noticed [] (c.inlets.get 0).refusedFull c.session.lost c.session.wakePending c.port.atn := by
  rw [h, Column.noticed_self]

theorem NoticesApart.refl (s : State) : NoticesApart s s :=
  ⟨rfl, ⟨rfl, rfl⟩, fun _ => ⟨[], _, _, _, _, by simp, Column.noticed_of_eq rfl⟩⟩

theorem NoticesApart.trans {s t u : State} (h : NoticesApart s t) (k : NoticesApart t u) : NoticesApart s u := by
  refine ⟨?_, ?_, fun q => ?_⟩
  · rw [k.rest, h.rest]
  · exact ⟨k.store.1.trans h.store.1, k.store.2.trans h.store.2⟩
  · obtain ⟨n1, r1, l1, w1, a1, c1, e1⟩ := h.columns q
    obtain ⟨n2, r2, l2, w2, a2, c2, e2⟩ := k.columns q
    refine ⟨n1 ++ n2, r2, l2, w2, a2, fun d hd => ?_, ?_⟩
    · rcases List.mem_append.mp hd with hd | hd
      · exact c1 d hd
      · exact c2 d hd
    · rw [e2, e1, Column.noticed_noticed]

theorem NoticesApart.loseNotice (s : State) (c : NoticeCall) : NoticesApart s (s.loseNotice c) := by
  refine ⟨rfl, ⟨rfl, rfl⟩, fun q => ?_⟩
  by_cases h : q = c.port
  · subst h
    by_cases e : ((s.col c.port).inlets.get 0).queue.length < ((s.col c.port).inlets.get 0).depth
    · refine ⟨[], ((s.col c.port).inlets.get 0).refusedFull, stepUpTo Config.stop8 (s.col c.port).session.lost,
        (s.col c.port).session.wakePending, (s.col c.port).port.atn, by simp, ?_⟩
      simp [State.loseNotice, State.onSession, State.onInlet, e, Column.noticed]
      exact (Tab.put_get _ _).symm
    · refine ⟨[], stepUpTo Config.stop16 ((s.col c.port).inlets.get 0).refusedFull,
        stepUpTo Config.stop8 (s.col c.port).session.lost, (s.col c.port).session.wakePending, (s.col c.port).port.atn,
        by simp, ?_⟩
      simp [State.loseNotice, State.onSession, State.onInlet, e, Column.noticed]
  · refine ⟨[], _, _, _, _, by simp, Column.noticed_of_eq ?_⟩
    simp [State.loseNotice, State.onSession, State.onInlet, h]

/-- A column with a message appended to the queue of inlet `i`, a wake inlet raising wake while DORMANT (R24). -/
def Column.appended (c : Column) (i : Fin 16) (d : Descriptor) : Column :=
  { c with
    inlets := c.inlets.put i { c.inlets.get i with queue := (c.inlets.get i).queue ++ [d] }
    session := { c.session with
      wakePending := if c.session.state = .dormant ∧ (c.inlets.get i).wake = true then true else c.session.wakePending } }

theorem State.append_eq (s : State) (p : Port) (i : Fin 16) (d : Descriptor) :
    s.append p i d = s.onCol p fun c => c.appended i d := by
  unfold State.append
  simp only [State.onInlet_session, State.onInlet_inlet_same]
  split
  · next h =>
    simp only [State.onSession, State.onInlet, State.onCol_onCol]
    apply State.onCol_congr
    have h' : (s.col p).session.state = .dormant ∧ ((s.col p).inlets.get i).wake = true := h
    simp [Column.appended, h']
  · next h =>
    unfold State.onInlet
    apply State.onCol_congr
    have h' : ¬ ((s.col p).session.state = .dormant ∧ ((s.col p).inlets.get i).wake = true) := h
    simp only [Column.appended, h', if_false]

/-- A message placed: the store's counts fall, and its descriptor stands at the tail of its queue. -/
theorem State.place_eq (s : State) (m : NewMessage) :
    s.place m = (s.onStore fun x =>
      { x with freeDescriptors := x.freeDescriptors - 1,
               freeCells := x.freeCells - (s.fillDescriptor m).cells.length }).onCol m.targetPort
      fun c => c.appended m.targetInlet (s.fillDescriptor m) := by
  unfold State.place
  rw [State.append_eq]

theorem NoticesApart.addNotice (s : State) (c : NoticeCall) : NoticesApart s (s.addNotice c) := by
  unfold State.addNotice
  simp only [State.place_eq]
  refine ⟨rfl, ⟨rfl, rfl⟩, fun q => ?_⟩
  generalize hd : State.fillDescriptor _ _ = d
  have hs : d.sender = .controller := by rw [← hd]; rfl
  by_cases h : q = c.port
  · subst h
    refine ⟨[d], ((s.col c.port).inlets.get 0).refusedFull, 0,
      if (s.col c.port).session.state = .dormant ∧ ((s.col c.port).inlets.get 0).wake = true then true
      else (s.col c.port).session.wakePending, (s.col c.port).port.atn, ?_, ?_⟩
    · exact fun e he => by rw [List.mem_singleton.mp he]; exact hs
    · simp only [State.onSession, State.drawMessage, State.onCol_onCol, State.onCol_col_same, State.onStore_col,
        Column.appended, Column.noticed]
      rfl
  · refine ⟨[], _, _, _, _, by simp, Column.noticed_of_eq ?_⟩
    simp [State.onSession, State.drawMessage, h]

/-- The notice generator touches notices alone. -/
theorem NoticesApart.notify (s : State) (c : NoticeCall) : NoticesApart s (s.notify c) := by
  unfold State.notify
  split
  · split
    · exact NoticesApart.addNotice s c
    · exact NoticesApart.loseNotice s c
  · exact NoticesApart.refl s

theorem NoticesApart.notifyAll (s : State) (cs : List NoticeCall) : NoticesApart s (s.notifyAll cs) := by
  unfold State.notifyAll
  induction cs generalizing s with
  | nil => exact NoticesApart.refl s
  | cons c cs ih => exact (NoticesApart.notify s c).trans (ih _)

/-- Following the lines leaves everything but the lines, so notices and lines apart the states agree. -/
theorem NoticesApart.followAtn (s u : State) : NoticesApart u (followAtn s u) := by
  refine ⟨?_, ?_, fun q => ⟨[], ((u.col q).inlets.get 0).refusedFull, (u.col q).session.lost,
    (u.col q).session.wakePending, atnNext (s.atnDrive q) (u.atnDrive q) (u.ctl q).atn, by simp, ?_⟩⟩
  · rw [followAtn_part]
  · simp
  · rw [followAtn_col]
    conv_lhs => rw [← Column.noticed_self (u.col q)]
    simp [Column.noticed, State.ctl]

/-! ### What follows from `NoticesApart` -/

theorem NoticesApart.sessionFrame {s t : State} (h : NoticesApart s t) (q : Port) :
    t.session q = { s.session q with lost := (t.session q).lost, wakePending := (t.session q).wakePending } := by
  obtain ⟨_, _, _, _, _, _, e⟩ := h.columns q
  simp only [State.session, e, Column.noticed]
theorem NoticesApart.engine {s t : State} (h : NoticesApart s t) (q : Port) : t.engine q = s.engine q := by
  obtain ⟨_, _, _, _, _, _, e⟩ := h.columns q
  simp only [State.engine, e, Column.noticed]
theorem NoticesApart.ctlFrame {s t : State} (h : NoticesApart s t) (q : Port) :
    t.ctl q = { s.ctl q with atn := (t.ctl q).atn } := by
  obtain ⟨_, _, _, _, _, _, e⟩ := h.columns q
  simp only [State.ctl, e, Column.noticed]
theorem NoticesApart.stream {s t : State} (h : NoticesApart s t) (q : Port) : t.stream q = s.stream q := by
  obtain ⟨_, _, _, _, _, _, e⟩ := h.columns q
  simp only [State.stream, e, Column.noticed]
theorem NoticesApart.route {s t : State} (h : NoticesApart s t) (q : Port) (i : Fin 63) : t.route q i = s.route q i := by
  obtain ⟨_, _, _, _, _, _, e⟩ := h.columns q
  simp only [State.route, e, Column.noticed]
theorem NoticesApart.grant {s t : State} (h : NoticesApart s t) (q : Port) (i : Fin 8) : t.grant q i = s.grant q i := by
  obtain ⟨_, _, _, _, _, _, e⟩ := h.columns q
  simp only [State.grant, e, Column.noticed]
theorem NoticesApart.lane {s t : State} (h : NoticesApart s t) (q : Port) (l : Fin 4) : t.lane q l = s.lane q l := by
  obtain ⟨_, _, _, _, _, _, e⟩ := h.columns q
  simp only [State.lane, e, Column.noticed]
theorem NoticesApart.inletOther {s t : State} (h : NoticesApart s t) (q : Port) {i : Fin 16} (hi : i ≠ 0) :
    t.inlet q i = s.inlet q i := by
  obtain ⟨_, _, _, _, _, _, e⟩ := h.columns q
  simp only [State.inlet, e, Column.noticed]
  exact Tab.get_put_ne _ _ hi
theorem NoticesApart.inletZero {s t : State} (h : NoticesApart s t) (q : Port) :
    ∃ new refused, (∀ d ∈ new, d.sender = .controller) ∧
      t.inlet q 0 = { s.inlet q 0 with queue := (s.inlet q 0).queue ++ new, refusedFull := refused } := by
  obtain ⟨new, refused, _, _, _, hs, e⟩ := h.columns q
  refine ⟨new, refused, hs, ?_⟩
  simp only [State.inlet, e, Column.noticed]
  exact Tab.get_put_same _ _ _
theorem NoticesApart.family {s t : State} (h : NoticesApart s t) (f : Fin 256) : t.family f = s.family f := by
  rw [h.rest]; rfl
theorem NoticesApart.window {s t : State} (h : NoticesApart s t) (w : Fin 32) : t.window w = s.window w := by
  rw [h.rest]; rfl
theorem NoticesApart.config {s t : State} (h : NoticesApart s t) : t.config = s.config := by rw [h.rest]
theorem NoticesApart.bulk {s t : State} (h : NoticesApart s t) : t.bulk = s.bulk := by rw [h.rest]
theorem NoticesApart.rstnLow {s t : State} (h : NoticesApart s t) : t.rstnLow = s.rstnLow := by rw [h.rest]
theorem NoticesApart.controller {s t : State} (h : NoticesApart s t) : t.controller = s.controller := by rw [h.rest]
theorem NoticesApart.supervisor {s t : State} (h : NoticesApart s t) : t.supervisor = s.supervisor := by rw [h.rest]
theorem NoticesApart.pending {s t : State} (h : NoticesApart s t) : t.pending = s.pending := by rw [h.rest]
theorem NoticesApart.pendingReset {s t : State} (h : NoticesApart s t) : t.pendingReset = s.pendingReset := by
  rw [h.rest]

/-! ### The lines and the notice generator -/

@[simp] theorem State.place_ctl (s : State) (m : NewMessage) (q : Port) : (s.place m).ctl q = s.ctl q := by
  rw [State.place_eq]
  by_cases h : q = m.targetPort
  · subst h; simp [State.ctl, Column.appended]
  · simp [State.ctl, h]

@[simp] theorem State.notify_ctl (s : State) (c : NoticeCall) (q : Port) : (s.notify c).ctl q = s.ctl q := by
  unfold State.notify
  split
  · split
    · simp [State.addNotice, State.drawMessage]
    · simp [State.loseNotice]
  · rfl

/-- The notice generator touches no port controller. -/
@[simp] theorem State.notifyAll_ctl (s : State) (cs : List NoticeCall) (q : Port) : (s.notifyAll cs).ctl q = s.ctl q := by
  unfold State.notifyAll
  induction cs generalizing s with
  | nil => rfl
  | cons c cs ih => rw [List.foldl_cons, ih, State.notify_ctl]

end Sys2Proof.Machine
end

