-- ==== Sys2Proof/Laws/Requests.lean ====
section
/-! SUPPORT. What the taking of a frame and the path of a request can do (08): one lemma for each outcome, cited in place of
unfolding `takeFrame`, `takeRequest` and `dispatch`. -/

namespace Sys2Proof.Machine

/-! ### The drive of a line -/

theorem State.atnDrive_congr {s t : State} {q : Port} (h1 : t.rstnLow = s.rstnLow) (h2 : t.controller = s.controller)
    (h3 : t.settings q = s.settings q) (h4 : (t.session q).state = (s.session q).state)
    (h5 : (t.session q).wakePending = (s.session q).wakePending) (h6 : (t.col q).waiting = (s.col q).waiting) :
    t.atnDrive q = s.atnDrive q := by
  simp only [State.atnDrive, h1, h2, h3, h4, h5, h6]

/-- A line is driven by its own port's column, its settings, RSTN and the controller state alone. -/
theorem State.atnDrive_of_col {s t : State} {q : Port} (h1 : t.rstnLow = s.rstnLow) (h2 : t.controller = s.controller)
    (h3 : t.settings q = s.settings q) (h4 : t.col q = s.col q) : t.atnDrive q = s.atnDrive q :=
  State.atnDrive_congr h1 h2 h3 (by rw [State.session, h4]; rfl) (by rw [State.session, h4]; rfl) (by rw [h4])

/-- A change of one column leaves what drives every other line. -/
theorem State.drive_onCol (s : State) (p : Port) (f : Column → Column) :
    ∀ q, q ≠ p → (s.onCol p f).atnDrive q = s.atnDrive q := by
  intro q h
  apply State.atnDrive_of_col <;> simp [h]

/-- Following the lines touches nothing but the lines. -/
theorem followAtn_lines (s u : State) : EqualButLines u (followAtn s u) := by
  refine ⟨followAtn_part s u, fun q => ?_⟩
  simp

/-- Following the lines after an event that left every other port's drive as it was changes one line at most. -/
theorem followAtn_line (s u : State) (p : Port) (h : ∀ q, q ≠ p → u.atnDrive q = s.atnDrive q) :
    EqualButLine p u (followAtn s u) := by
  refine State.ext_columns ?_ fun q => ?_
  · rw [followAtn_part]; rfl
  · by_cases e : q = p
    · subst e; simp [State.onCtl, State.ctl]
    · simp [State.onCtl, State.ctl, e, h q e]

/-- Following the lines after an event that left every drive as it was changes nothing. -/
theorem followAtn_same (s u : State) (h : ∀ q, u.atnDrive q = s.atnDrive q) : followAtn s u = u := by
  refine State.ext_columns ?_ fun q => ?_
  · rw [followAtn_part]
  · simp [State.ctl, h q]

/-! ### The taking of a frame -/

theorem State.spend_eq (s : State) (p : Port) : s.spend p = s.onCtl p fun c => { c with assembly := c.ended } := by
  unfold State.spend State.onCtl
  apply State.onCol_congr
  cases h : (s.col p).port.outbound
  · simp [PortController.ended, h]
    rw [← h]
  · simp [PortController.ended, h]

theorem State.noted_eq (s : State) (p : Port) : (s.spend p).count p Counters.addFrameIn = s.noted p := by
  rw [State.spend_eq]
  simp [State.count, State.noted, State.onCtl]

theorem takeFrame_taken {s : State} {p : Port} (act : State → State) (h : s.takesFrames p) :
    takeFrame p act s = followAtn s (act (s.spend p)) := by
  obtain ⟨h1, h2, h3⟩ := h
  simp [takeFrame, h1, h2, h3]

theorem takeFrame_halted {s : State} {p : Port} (act : State → State) (h : s.rstnLow = true) : takeFrame p act s = s := by
  simp [takeFrame, h]

theorem takeFrame_starting {s : State} {p : Port} (act : State → State) (h1 : s.rstnLow = false)
    (h2 : s.controller = .starting) : takeFrame p act s = s.onCtl p fun c => { c with assembly := c.ended } := by
  by_cases h : s.inTransaction p = true ∧ (s.ctl p).assembly = .spent
  · simp only [takeFrame, h1, h]
    refine (State.onCol_self s p ?_).symm
    have e : (s.col p).port.assembly = .spent := h.2
    have o : (s.col p).port.outbound.isSome = true := h.1
    simp [PortController.ended, o, ← e]
  · rw [← State.spend_eq]
    simp [takeFrame, h1, h, h2]

/-- All that a frame can do: nothing, the end of its assembly, or its act with the lines following. -/
theorem takeFrame_cases (p : Port) (act : State → State) (s : State) :
    takeFrame p act s = s ∨ takeFrame p act s = s.spend p ∨
      (s.takesFrames p ∧ takeFrame p act s = followAtn s (act (s.spend p))) := by
  cases h1 : s.rstnLow
  · by_cases h : s.inTransaction p = true ∧ (s.ctl p).assembly = .spent
    · left; simp [takeFrame, h1, h]
    · cases h2 : s.controller
      · right; left; simp [takeFrame, h1, h, h2]
      · right; right
        have ht : s.takesFrames p := ⟨h1, h2, h⟩
        exact ⟨ht, takeFrame_taken act ht⟩
  · left; exact takeFrame_halted act h1

/-! ### The path of a request -/

theorem takeRequest_taken {s : State} {p : Port} (kind : RequestKind) (tag : Byte)
    (block : Option (State → State × Answer)) (h : s.takesRequests p) :
    takeRequest kind p tag block s = followAtn s (dispatch kind p tag block (s.noted p)) := by
  have hl : ((s.noted p).ctl p).responses.length < Config.responseQueue := by
    simpa [State.noted, Config.responseQueue] using h.2
  rw [takeRequest, takeFrame_taken _ h.1]
  simp only [State.noted_eq, hl, if_true]

theorem takeRequest_lost {s : State} {p : Port} (kind : RequestKind) (tag : Byte)
    (block : Option (State → State × Answer)) (h : s.takesFrames p) (hf : 4 ≤ (s.ctl p).responses.length) :
    takeRequest kind p tag block s = followAtn s ((s.noted p).loseRequest p) := by
  have hl : ¬ ((s.noted p).ctl p).responses.length < Config.responseQueue := by
    simpa [State.noted, Config.responseQueue] using hf
  rw [takeRequest, takeFrame_taken _ h]
  simp only [State.noted_eq, hl, if_false]

/-- A request's response joins a queue that has room. -/
theorem State.respond_eq {s : State} {p : Port} (tag kind : Byte) (st : Status) (r : Result)
    (h : (s.ctl p).responses.length < 4) :
    s.respond p tag kind st r = s.onCtl p fun c =>
      { c with responses := c.responses ++ [{ tag := tag, kind := kind, status := st, result := r }] } := by
  unfold State.respond State.enqueue State.onCtl
  apply State.onCol_congr
  have h' : (s.col p).port.responses.length < Config.responseQueue := h
  simp [h']

theorem State.closeStream_eq (s : State) (p : Port) (kind : RequestKind) :
    s.closeStream p kind = if kind.keepsStream then s else s.setStream p none := rfl

theorem dispatch_malformed (kind : RequestKind) (p : Port) (tag : Byte) (s : State) :
    dispatch kind p tag none s = (s.closeStream p kind).respond p tag kind.code .badRequest .none := rfl

theorem dispatch_refused {kind : RequestKind} {p : Port} {s : State} {st : Status} (tag : Byte)
    (act : State → State × Answer) (h : (s.closeStream p kind).gate p kind = some st) :
    dispatch kind p tag (some act) s = (s.closeStream p kind).respond p tag kind.code st .none := by
  simp only [dispatch, h]

theorem dispatch_served {kind : RequestKind} {p : Port} {s s' : State} {st : Status} {r : Result} (tag : Byte)
    {act : State → State × Answer} (h : (s.closeStream p kind).gate p kind = none)
    (ha : act (s.closeStream p kind) = (s', .now st r)) :
    dispatch kind p tag (some act) s = s'.respond p tag kind.code st r := by
  simp only [dispatch, h, ha]

theorem dispatch_later {kind : RequestKind} {p : Port} {s s' : State} (tag : Byte) {act : State → State × Answer}
    (h : (s.closeStream p kind).gate p kind = none) (ha : act (s.closeStream p kind) = (s', .later)) :
    dispatch kind p tag (some act) s = s' := by
  simp only [dispatch, h, ha]

/-! ### The expected states of the statements -/

/-- An answered request whose stream is closed, as one change of its column. -/
theorem State.answer_closed_eq (s : State) (p : Port) (tag kind : Byte) (st : Status) (r : Result) :
    (s.answer p tag kind st r).setStream p none =
      ((s.noted p).setStream p none).onCtl p fun c =>
        { c with responses := c.responses ++ [{ tag := tag, kind := kind, status := st, result := r }] } := by
  simp [State.answer, State.noted, State.setStream, State.onCtl]

theorem State.answer_eq (s : State) (p : Port) (tag kind : Byte) (st : Status) (r : Result) :
    s.answer p tag kind st r = (s.noted p).onCtl p fun c =>
      { c with responses := c.responses ++ [{ tag := tag, kind := kind, status := st, result := r }] } := by
  simp [State.answer, State.noted, State.onCtl]

/-! ### The gates -/

theorem State.gate_congr {s t : State} {p : Port} (kind : RequestKind) (h1 : (t.session p).state = (s.session p).state)
    (h2 : t.supervisor = s.supervisor) : t.gate p kind = s.gate p kind := by
  simp only [State.gate, State.supervisorFlag, h1, h2]

@[simp] theorem State.noted_session (s : State) (p q : Port) : (s.noted p).session q = s.session q := by
  simp [State.noted]

@[simp] theorem State.closeStream_session (s : State) (p q : Port) (k : RequestKind) :
    (s.closeStream p k).session q = s.session q := by
  unfold State.closeStream; split <;> simp

@[simp] theorem State.closeStream_supervisor (s : State) (p : Port) (k : RequestKind) :
    (s.closeStream p k).supervisor = s.supervisor := by
  unfold State.closeStream; split <;> simp

@[simp] theorem State.closeStream_ctl (s : State) (p q : Port) (k : RequestKind) :
    (s.closeStream p k).ctl q = s.ctl q := by
  unfold State.closeStream; split <;> simp

/-- The gates see what they would have seen before the frame was counted and the stream closed. -/
theorem State.gate_after (s : State) (p : Port) (kind : RequestKind) :
    ((s.noted p).closeStream p kind).gate p kind = s.gate p kind :=
  State.gate_congr kind (by simp) (by simp [State.noted])

theorem State.gate_serves {s : State} {p : Port} (kind : RequestKind) (h : s.serves p) (hk : kind.supervision = false) :
    s.gate p kind = none := by
  rcases h.2 with h | h <;> cases kind <;> simp_all [State.gate, sessionGate, privilegeGate, RequestKind.supervision]

theorem State.gate_supervised {s : State} {p : Port} (kind : RequestKind) (h : s.supervised p) :
    s.gate p kind = none := by
  obtain ⟨⟨_, h⟩, hp, hs⟩ := h
  rcases h with h | h <;> cases kind <;>
    simp_all [State.gate, sessionGate, privilegeGate, State.supervisorFlag, RequestKind.supervision]

/-- A request that its block answers at once, in a state that takes requests: the frame counted, the stream closed, the
block's effect, and the answer at the tail of the queue; then the lines follow. -/
theorem takeRequest_served {kind : RequestKind} {p : Port} {s s' : State} {st : Status} {r : Result} (tag : Byte)
    {act : State → State × Answer} (ht : s.takesRequests p) (hg : s.gate p kind = none)
    (ha : act ((s.noted p).closeStream p kind) = (s', .now st r)) (hc : (s'.ctl p).responses = (s.ctl p).responses) :
    takeRequest kind p tag (some act) s = followAtn s (s'.onCtl p fun c =>
      { c with responses := c.responses ++ [{ tag := tag, kind := kind.code, status := st, result := r }] }) := by
  rw [takeRequest_taken kind tag _ ht, dispatch_served tag ((State.gate_after s p kind).trans hg) ha,
    State.respond_eq _ _ _ _ (by rw [hc]; exact ht.2)]

theorem takeRequest_later {kind : RequestKind} {p : Port} {s s' : State} (tag : Byte) {act : State → State × Answer}
    (ht : s.takesRequests p) (hg : s.gate p kind = none)
    (ha : act ((s.noted p).closeStream p kind) = (s', .later)) :
    takeRequest kind p tag (some act) s = followAtn s s' := by
  rw [takeRequest_taken kind tag _ ht, dispatch_later tag ((State.gate_after s p kind).trans hg) ha]

/-- The same, against an expected state `u`. -/
theorem takeRequest_line {kind : RequestKind} {p : Port} {s u : State} (s' : State) {st : Status} {r : Result} {tag : Byte}
    {act : State → State × Answer} (ht : s.takesRequests p) (hg : s.gate p kind = none)
    (ha : act ((s.noted p).closeStream p kind) = (s', .now st r))
    (hu : u = s'.onCtl p fun c =>
      { c with responses := c.responses ++ [{ tag := tag, kind := kind.code, status := st, result := r }] })
    (hc : (s'.ctl p).responses = (s.ctl p).responses) (hd : ∀ q, q ≠ p → u.atnDrive q = s.atnDrive q) :
    EqualButLine p u (takeRequest kind p tag (some act) s) := by
  rw [takeRequest_served tag ht hg ha hc, ← hu]
  exact followAtn_line s u p hd

theorem State.closeStream_closes {k : RequestKind} (h : k.keepsStream = false) (s : State) (p : Port) :
    s.closeStream p k = s.setStream p none := by
  simp [State.closeStream, h]

/-- A request that closes the stream, is answered, and does nothing else. -/
theorem takeRequest_answered {k : RequestKind} {s : State} {p : Port} {tag : Byte} {act : State → State × Answer}
    {st : Status} {r : Result} (hk : k.keepsStream = false) (h : s.takesRequests p) (hg : s.gate p k = none)
    (ha : act ((s.noted p).setStream p none) = ((s.noted p).setStream p none, .now st r)) :
    EqualButLine p ((s.answer p tag k.code st r).setStream p none) (takeRequest k p tag (some act) s) := by
  apply takeRequest_line ((s.noted p).setStream p none) (st := st) (r := r) h hg
  · rw [State.closeStream_closes hk, ha]
  · rw [State.answer_closed_eq]
  · simp [State.noted]
  · simp only [State.answer, State.setStream, State.onCtl, State.onCol_onCol]
    exact State.drive_onCol _ _ _

/-- A request that closes the stream, is answered, and changes its own column by `f`, the port apart. -/
theorem takeRequest_changed {k : RequestKind} {s u : State} {p : Port} {tag : Byte} {act : State → State × Answer}
    {st : Status} {r : Result} (f : Column → Column) (hk : k.keepsStream = false) (h : s.takesRequests p)
    (hg : s.gate p k = none)
    (ha : act ((s.noted p).setStream p none) = (((s.noted p).setStream p none).onCol p f, .now st r))
    (hf : ∀ c, (f c).port = c.port) (hf' : ∀ c x, f { c with port := x } = { f c with port := x })
    (hu : u = ((s.answer p tag k.code st r).setStream p none).onCol p f) :
    EqualButLine p u (takeRequest k p tag (some act) s) := by
  subst hu
  apply takeRequest_line (((s.noted p).setStream p none).onCol p f) (st := st) (r := r) h hg
  · rw [State.closeStream_closes hk, ha]
  · simp only [State.answer, State.noted, State.setStream, State.onCtl, State.onCol_onCol]
    apply State.onCol_congr
    simp only [hf]
    rw [← hf']
  · simp [State.noted, State.ctl, hf, State.setStream, State.onCtl]
  · simp only [State.answer, State.setStream, State.onCtl, State.onCol_onCol]
    exact State.drive_onCol _ _ _

/-- A request that is not well made (R150). -/
theorem takeRequest_malformed {p : Port} {s : State} (kind : RequestKind) (tag : Byte) (ht : s.takesRequests p) :
    takeRequest kind p tag none s = followAtn s (((s.noted p).closeStream p kind).onCtl p fun c =>
      { c with responses := c.responses ++
          [{ tag := tag, kind := kind.code, status := .badRequest, result := .none }] }) := by
  rw [takeRequest_taken kind tag _ ht, dispatch_malformed,
    State.respond_eq _ _ _ _ (by simpa [State.noted] using ht.2)]

/-- A request refused at the session gate or the privilege gate (R151, R152). -/
theorem takeRequest_refused {p : Port} {s : State} {kind : RequestKind} {st : Status} (tag : Byte)
    (act : State → State × Answer) (ht : s.takesRequests p) (hg : s.gate p kind = some st) :
    takeRequest kind p tag (some act) s = followAtn s (((s.noted p).closeStream p kind).onCtl p fun c =>
      { c with responses := c.responses ++ [{ tag := tag, kind := kind.code, status := st, result := .none }] }) := by
  rw [takeRequest_taken kind tag _ ht, dispatch_refused tag act ((State.gate_after s p kind).trans hg),
    State.respond_eq _ _ _ _ (by simpa [State.noted] using ht.2)]

end Sys2Proof.Machine
end

