-- ==== Sys2Proof/Laws/Calm.lean ====
section
/-! SUPPORT. What no operation over messages, tables, inlets and sessions touches: port controllers, configuration, bulk memory
and the part-wide state. `Calm` says it once, and every block of a request but the few that act on just these is calm. -/

namespace Sys2Proof.Machine

/-- `t` has the port controllers, the configuration, the bulk memory and the part-wide state of `s`. -/
structure Calm (s t : State) : Prop where
  ctl : ∀ q, t.ctl q = s.ctl q
  config : t.config = s.config
  bulk : t.bulk = s.bulk
  rstnLow : t.rstnLow = s.rstnLow
  controller : t.controller = s.controller
  supervisor : t.supervisor = s.supervisor

theorem Calm.refl (s : State) : Calm s s := ⟨fun _ => rfl, rfl, rfl, rfl, rfl, rfl⟩

theorem Calm.trans {s t u : State} (h : Calm s t) (k : Calm t u) : Calm s u :=
  ⟨fun q => (k.ctl q).trans (h.ctl q), k.config.trans h.config, k.bulk.trans h.bulk, k.rstnLow.trans h.rstnLow,
    k.controller.trans h.controller, k.supervisor.trans h.supervisor⟩

theorem TablesOnly.calm {s t : State} (h : TablesOnly s t) : Calm s t :=
  ⟨h.ctl, h.config, h.bulk, h.rstnLow, h.controller, h.supervisor⟩

theorem Calm.notifyAll (s : State) (cs : List NoticeCall) : Calm s (s.notifyAll cs) :=
  have h := NoticesApart.notifyAll s cs
  ⟨fun q => State.notifyAll_ctl s cs q, h.config, h.bulk, h.rstnLow, h.controller, h.supervisor⟩

theorem Calm.onCol (s : State) (p : Port) {f : Column → Column} (h : ∀ c, (f c).port = c.port) : Calm s (s.onCol p f) := by
  refine ⟨fun q => ?_, rfl, rfl, rfl, rfl, rfl⟩
  by_cases e : q = p
  · subst e; simp [State.ctl, h]
  · simp [State.ctl, e]

theorem Calm.onSession (s : State) (p : Port) (f : Session → Session) : Calm s (s.onSession p f) :=
  Calm.onCol s p fun _ => rfl
theorem Calm.onEngine (s : State) (p : Port) (f : Engine → Engine) : Calm s (s.onEngine p f) :=
  Calm.onCol s p fun _ => rfl
theorem Calm.setStream (s : State) (p : Port) (x : Option Stream) : Calm s (s.setStream p x) :=
  Calm.onCol s p fun _ => rfl
theorem Calm.onInlet (s : State) (p : Port) (i : Fin 16) (f : Inlet → Inlet) : Calm s (s.onInlet p i f) :=
  Calm.onCol s p fun _ => rfl
theorem Calm.onLane (s : State) (p : Port) (l : Fin 4) (f : Lane → Lane) : Calm s (s.onLane p l f) :=
  Calm.onCol s p fun _ => rfl
theorem Calm.onHead (s : State) (p : Port) (i : Fin 16) (f : Descriptor → Descriptor) : Calm s (s.onHead p i f) :=
  Calm.onInlet s p i _
theorem Calm.onStore (s : State) (f : Store → Store) : Calm s (s.onStore f) :=
  ⟨fun _ => rfl, rfl, rfl, rfl, rfl, rfl⟩
theorem Calm.idleEngine (s : State) (p : Port) : Calm s (s.idleEngine p) := Calm.onEngine s p _
theorem Calm.settleDrain (s : State) (p : Port) (i : Fin 16) : Calm s (s.settleDrain p i) := Calm.onInlet s p i _
theorem Calm.drawMessage (s : State) : Calm s s.drawMessage.2 := ⟨fun _ => rfl, rfl, rfl, rfl, rfl, rfl⟩
theorem Calm.drawSerial (s : State) : Calm s s.drawSerial.2 := ⟨fun _ => rfl, rfl, rfl, rfl, rfl, rfl⟩

theorem Calm.place (s : State) (m : NewMessage) : Calm s (s.place m) := by
  rw [State.place_eq]
  exact (Calm.onStore s _).trans (Calm.onCol _ _ fun _ => rfl)

theorem Calm.takeOut (s : State) (p : Port) (i : Fin 16) (d : Descriptor) : Calm s (s.takeOut p i d) := by
  unfold State.takeOut
  exact (Calm.onInlet s p i _).trans (Calm.onStore _ _)

theorem Calm.revokeWindow (s : State) (w : Fin 32) : Calm s (s.revokeWindow w) := by
  unfold State.revokeWindow
  split
  · exact ⟨fun q => by simp [State.ctl, State.col, State.setWindow], rfl, rfl, rfl, rfl, rfl⟩
  · exact Calm.refl s

theorem Calm.revokeWindows (s : State) (ws : List (Fin 32)) : Calm s (s.revokeWindows ws) := by
  unfold State.revokeWindows
  induction ws generalizing s with
  | nil => exact Calm.refl s
  | cons w ws ih => exact (Calm.revokeWindow s w).trans (ih _)

theorem Calm.revokeFamilies (s : State) (fs : List (Fin 256)) : Calm s (s.revokeFamilies fs) :=
  (TablesOnly.revokeFamilies s fs).calm

theorem Calm.destroy (s : State) (p : Port) (i : Fin 16) (d : Descriptor) (c : DestroyCause) (e : List NoticeCall) :
    Calm s (s.destroy p i d c e) :=
  (((Calm.takeOut s p i d).trans (TablesOnly.decrement _ _).calm).trans (TablesOnly.endEnclosures _ p _ _).calm).trans
    (Calm.notifyAll _ _)

theorem Calm.abortEngine (s : State) (p : Port) : Calm s (s.abortEngine p) := by
  unfold State.abortEngine
  split
  · exact Calm.refl s
  · split
    · exact (((TablesOnly.freeReserved s p _ _).calm.trans (Calm.notifyAll _ _)).trans (Calm.onHead _ _ _ _)).trans
        (Calm.idleEngine _ _)
    · exact Calm.idleEngine s p

/-! ### Sweeps and sessions -/

theorem Calm.foldl {α : Type} (f : State → α → State) (h : ∀ s a, Calm s (f s a)) (s : State) (l : List α) :
    Calm s (l.foldl f s) := by
  induction l generalizing s with
  | nil => exact Calm.refl s
  | cons a l ih => exact (h s a).trans (ih _)

theorem Calm.report (s : State) (p : Port) (f : Sweep → Sweep) : Calm s (s.report p f) := Calm.onSession s p _

theorem Calm.endCopyNotify (s : State) (p q : Port) (i : Fin 63) (f : Fin 256) (r : RouteDropReason) :
    Calm s (((s.setRoute p i none).endCopy f q r).1.notifyAll ((s.setRoute p i none).endCopy f q r).2) :=
  ((TablesOnly.setRoute s p i none).calm.trans (TablesOnly.endCopy _ f q r).calm).trans (Calm.notifyAll _ _)

theorem Calm.sweepRoute (p : Port) (s : State) (i : Fin 63) : Calm s (State.sweepRoute p s i) := by
  unfold State.sweepRoute
  split
  · split
    · exact Calm.endCopyNotify s p p i _ _
    · exact Calm.refl s
  · exact Calm.refl s

theorem Calm.sweepGrant (p : Port) (s : State) (i : Fin 8) : Calm s (State.sweepGrant p s i) := by
  unfold State.sweepGrant
  split
  · split
    · exact (TablesOnly.setGrant s p i none).calm.trans (TablesOnly.lowerWindow _ _).calm
    · exact Calm.refl s
  · exact Calm.refl s

theorem Calm.sweepQueue (p : Port) (i : Fin 16) (n : Nat) (s : State) : Calm s (State.sweepQueue p i n s) := by
  induction n generalizing s with
  | zero => exact Calm.refl s
  | succ n ih =>
    unfold State.sweepQueue
    split
    · exact (Calm.destroy s p i _ _ _).trans (ih _)
    · exact Calm.refl s

theorem Calm.sweepRoutes (s : State) (p : Port) : Calm s (s.sweepRoutes p) := by
  unfold State.sweepRoutes
  exact (Calm.foldl _ (Calm.sweepRoute p) s _).trans (Calm.report _ _ _)

theorem Calm.sweepGrants (s : State) (p : Port) : Calm s (s.sweepGrants p) := by
  unfold State.sweepGrants
  exact (Calm.foldl _ (Calm.sweepGrant p) s _).trans (Calm.report _ _ _)

theorem Calm.sweepInlets (s : State) (p : Port) : Calm s (s.sweepInlets p) := by
  unfold State.sweepInlets
  refine Calm.trans ?_ (Calm.report _ _ _)
  refine Calm.trans ?_ (Calm.onCol _ _ fun _ => rfl)
  exact Calm.foldl _ (fun s i => Calm.sweepQueue p i _ s) s _

theorem Calm.beginSession (s : State) (p : Port) (c : Byte) (n : List Byte) : Calm s (s.beginSession p c n) := by
  unfold State.beginSession
  refine Calm.trans ?_ (Calm.onCol _ _ fun _ => rfl)
  exact (Calm.onSession s p _).trans (Calm.onInlet _ _ _ _)

/-! ### The blocks of the requests -/

theorem dormantBlock_calm (p : Port) (s : State) : Calm s (dormantBlock p () s).1 := by
  unfold dormantBlock
  repeat' split
  all_goals first
    | exact Calm.refl s
    | (dsimp only; exact Calm.onSession s p _)

theorem resumeBlock_calm (p : Port) (s : State) : Calm s (resumeBlock p () s).1 := by
  unfold resumeBlock
  split
  · dsimp only; exact Calm.onSession s p _
  · exact Calm.refl s

theorem createRouteBlock_calm (p : Port) (o : CreateRouteOp) (s : State) : Calm s (createRouteBlock p o s).1 := by
  have k := Calm.drawSerial s
  unfold createRouteBlock
  repeat' split
  all_goals first
    | exact Calm.refl s
    | (dsimp only
       simp_all only
       refine Calm.trans ?_ (TablesOnly.setRoute _ _ _ _).calm
       exact k.trans (TablesOnly.setFamily _ _ _).calm)

theorem dropRouteBlock_calm (p : Port) (i : Fin 63) (s : State) : Calm s (dropRouteBlock p i s).1 := by
  unfold dropRouteBlock
  split
  · exact Calm.refl s
  · split
    · exact Calm.refl s
    · exact Calm.endCopyNotify s p p i _ _

theorem revokeFamilyBlock_calm (p : Port) (f : Fin 256) (s : State) : Calm s (revokeFamilyBlock p f s).1 := by
  unfold revokeFamilyBlock
  repeat' split
  all_goals first
    | exact Calm.refl s
    | exact (TablesOnly.revokeFamily s f).calm

theorem routeInfoBlock_calm (p : Port) (i : Fin 63) (s : State) : Calm s (routeInfoBlock p i s).1 := by
  unfold routeInfoBlock
  repeat' split
  all_goals exact Calm.refl s

theorem openInletBlock_calm (p : Port) (o : OpenInletOp) (s : State) : Calm s (openInletBlock p o s).1 := by
  unfold openInletBlock
  repeat' split
  all_goals first
    | exact Calm.refl s
    | (dsimp only; exact Calm.onInlet s p _ _)

theorem Calm.discardQueued (p : Port) (i : Fin 16) (n : Nat) (s : State) : Calm s (State.discardQueued p i n s).1 := by
  induction n generalizing s with
  | zero => exact Calm.refl s
  | succ n ih =>
    unfold State.discardQueued
    split
    · exact (Calm.destroy s p i _ _ _).trans (ih _)
    · exact Calm.refl s

theorem setInletBlock_calm (p : Port) (o : SetInletOp) (s : State) : Calm s (setInletBlock p o s).1 := by
  unfold setInletBlock
  dsimp only
  repeat' split
  all_goals first
    | exact Calm.refl s
    | (dsimp only; exact Calm.onInlet s p _ _)

theorem setLaneBlock_calm (p : Port) (o : SetLaneOp) (s : State) : Calm s (setLaneBlock p o s).1 := by
  unfold setLaneBlock
  repeat' split
  all_goals first
    | exact Calm.refl s
    | (dsimp only; exact Calm.onLane s p _ _)

theorem receiveBlock_calm (p : Port) (o : ReceiveOp) (s : State) : Calm s (receiveBlock p o s).1 := by
  unfold receiveBlock
  dsimp only
  repeat' split
  all_goals first
    | exact Calm.refl s
    | (dsimp only; exact Calm.onInlet s p _ _)

theorem Calm.admission (s : State) (p : Port) (o : SendOp) (path : Path) : Calm s (s.admission p o path).1 := by
  unfold State.admission
  exact ((((Calm.drawMessage s).trans (TablesOnly.encloseAll _ _ _).calm).trans (TablesOnly.mint _ _ _ _).calm).trans
    (TablesOnly.charge _ _ _ _).calm).trans (Calm.place _ _)

theorem sendBlock_calm (p : Port) (o : SendOp) (s : State) : Calm s (sendBlock p o s).1 := by
  unfold sendBlock
  split
  · exact Calm.refl s
  · split
    · unfold State.refuseSend
      dsimp only
      split
      · exact Calm.onInlet s _ _ _
      · exact Calm.onStore s _
      · exact Calm.refl s
    · exact Calm.admission s p o _

theorem createWindowBlock_calm (p : Port) (o : CreateWindowOp) (s : State) : Calm s (createWindowBlock p o s).1 := by
  unfold createWindowBlock
  repeat' split
  all_goals first
    | exact Calm.refl s
    | exact (TablesOnly.setWindow _ _ _).calm.trans (TablesOnly.setGrant _ _ _ _).calm

theorem closeWindowBlock_calm (p : Port) (i : Fin 8) (s : State) : Calm s (closeWindowBlock p i s).1 := by
  unfold closeWindowBlock
  repeat' split
  all_goals first
    | exact Calm.refl s
    | exact Calm.revokeWindow s _

theorem dropGrantBlock_calm (p : Port) (i : Fin 8) (s : State) : Calm s (dropGrantBlock p i s).1 := by
  unfold dropGrantBlock
  repeat' split
  all_goals first
    | exact Calm.refl s
    | exact (TablesOnly.setGrant s p i none).calm.trans (TablesOnly.lowerWindow _ _).calm

theorem streamOpenBlock_calm (p : Port) (o : StreamOpenOp) (s : State) : Calm s (streamOpenBlock p o s).1 := by
  unfold streamOpenBlock
  repeat' split
  all_goals first
    | exact Calm.refl s
    | (dsimp only; exact Calm.setStream s p _)

theorem streamReadBlock_calm (p : Port) (n : Nat) (s : State) : Calm s (streamReadBlock p n s).1 := by
  unfold streamReadBlock
  repeat' split
  all_goals first
    | exact Calm.refl s
    | (dsimp only; exact Calm.setStream s p _)

/-! ### The delivery engine -/

theorem Calm.serveLane (s : State) (p : Port) (l : Fin 4) (i : Fin 16) : Calm s (s.serveLane p l i) := by
  unfold State.serveLane
  refine Calm.trans (Calm.onLane s p l fun x => { x with lastServed := i }) ?_
  dsimp only
  split
  · exact Calm.onInlet _ _ _ _
  · exact Calm.refl _

theorem Calm.present (s : State) (p : Port) (i : Fin 16) (d : Descriptor) : Calm s (s.present p i d) := by
  unfold State.present
  refine Calm.trans ?_ (Calm.notifyAll _ _)
  refine Calm.trans ?_ (Calm.onEngine _ _ _)
  exact (TablesOnly.settleAll _ p _).calm.trans (Calm.onHead _ _ _ _)

theorem Calm.offer (s : State) (p : Port) (l : Fin 4) (i : Fin 16) (d : Descriptor) : Calm s (s.offer p l i d) :=
  (Calm.serveLane s p l i).trans (Calm.present _ p i d)

theorem Calm.choose (s : State) (p : Port) : Calm s (s.choose p) := by
  unfold State.choose
  repeat' split
  all_goals first
    | exact Calm.refl s
    | exact Calm.offer s p _ _ _

end Sys2Proof.Machine
end

