-- ==== Sys2Proof/Laws/PerInstr.lean ====
section
/-! SUPPORT. One statement about every command as syntax, a lemma for each constructor: which commands are requests, and that the
body of a request's frame opens with the byte that names its kind (R162). -/

namespace Sys2Proof.Laws.RequestFrame

open Sys2Proof.Machine

/-- A command has a frame's header exactly when it has a frame's body; a request has both, and its body opens with the one
byte that names its kind. -/
def Statement (i : Instr) : Prop :=
  (requestHeader i).isSome = (requestBody i).isSome ∧
    ∀ k, requestKind i = some k →
      (requestHeader i).isSome = true ∧ (requestBody i).bind List.head? = some k.code ∧ kindOf k.code = some k

/-- Every kind is read back from its code. -/
theorem kindOf_code (k : RequestKind) : kindOf k.code = some k := by cases k <;> decide

theorem of_request {i : Instr} {k : RequestKind} {h : Port × Byte} {bs : List Byte} (kind : requestKind i = some k)
    (header : requestHeader i = some h) (body : requestBody i = some (k.code :: bs)) : Statement i := by
  refine ⟨by rw [header, body]; rfl, fun k' e => ?_⟩
  rw [kind] at e
  cases e
  exact ⟨by rw [header]; rfl, by rw [body]; rfl, kindOf_code k⟩

theorem of_other {i : Instr} (kind : requestKind i = none) (both : (requestHeader i).isSome = (requestBody i).isSome) :
    Statement i := ⟨both, fun _ e => by rw [kind] at e; cases e⟩

theorem hello (p : Port) (tag : Byte) (body : Body HelloFields) : Statement (.hello p tag body) := of_request rfl rfl rfl
theorem bye (p : Port) (tag : Byte) (body : List Byte) : Statement (.bye p tag body) := of_request rfl rfl rfl
theorem dormant (p : Port) (tag : Byte) (body : List Byte) : Statement (.dormant p tag body) := of_request rfl rfl rfl
theorem resume (p : Port) (tag : Byte) (body : List Byte) : Statement (.resume p tag body) := of_request rfl rfl rfl
theorem status (p : Port) (tag : Byte) (body : List Byte) : Statement (.status p tag body) := of_request rfl rfl rfl
theorem createRoute (p : Port) (tag : Byte) (body : Body CreateRouteFields) : Statement (.createRoute p tag body) := of_request rfl rfl rfl
theorem dropRoute (p : Port) (tag : Byte) (slot : Body Nat) : Statement (.dropRoute p tag slot) := of_request rfl rfl rfl
theorem revokeFamily (p : Port) (tag : Byte) (family : Body Nat) : Statement (.revokeFamily p tag family) := of_request rfl rfl rfl
theorem routeInfo (p : Port) (tag : Byte) (slot : Body Nat) : Statement (.routeInfo p tag slot) := of_request rfl rfl rfl
theorem openInlet (p : Port) (tag : Byte) (body : Body OpenInletFields) : Statement (.openInlet p tag body) := of_request rfl rfl rfl
theorem closeInlet (p : Port) (tag : Byte) (body : Body CloseInletFields) : Statement (.closeInlet p tag body) := of_request rfl rfl rfl
theorem setInlet (p : Port) (tag : Byte) (body : Body SetInletFields) : Statement (.setInlet p tag body) := of_request rfl rfl rfl
theorem setLane (p : Port) (tag : Byte) (body : Body SetLaneFields) : Statement (.setLane p tag body) := of_request rfl rfl rfl
theorem receive (p : Port) (tag : Byte) (body : Body ReceiveFields) : Statement (.receive p tag body) := of_request rfl rfl rfl
theorem inletStatus (p : Port) (tag : Byte) (inlet : Body Nat) : Statement (.inletStatus p tag inlet) := of_request rfl rfl rfl
theorem send (p : Port) (tag : Byte) (body : Body SendFields) : Statement (.send p tag body) := of_request rfl rfl rfl
theorem createWindow (p : Port) (tag : Byte) (body : Body CreateWindowFields) : Statement (.createWindow p tag body) := of_request rfl rfl rfl
theorem closeWindow (p : Port) (tag : Byte) (slot : Body Nat) : Statement (.closeWindow p tag slot) := of_request rfl rfl rfl
theorem dropGrant (p : Port) (tag : Byte) (slot : Body Nat) : Statement (.dropGrant p tag slot) := of_request rfl rfl rfl
theorem streamOpen (p : Port) (tag : Byte) (body : Body StreamOpenFields) : Statement (.streamOpen p tag body) := of_request rfl rfl rfl
theorem streamData (p : Port) (tag : Byte) (data : List Byte) : Statement (.streamData p tag data) := of_request rfl rfl rfl
theorem streamRead (p : Port) (tag : Byte) (count : Body Nat) : Statement (.streamRead p tag count) := of_request rfl rfl rfl
theorem evict (p : Port) (tag : Byte) (port : Body Nat) : Statement (.evict p tag port) := of_request rfl rfl rfl
theorem setPort (p : Port) (tag : Byte) (body : Body SetPortFields) : Statement (.setPort p tag body) := of_request rfl rfl rfl
theorem setReserve (p : Port) (tag : Byte) (body : Body SetReserveFields) : Statement (.setReserve p tag body) := of_request rfl rfl rfl
theorem portStatus (p : Port) (tag : Byte) (port : Body Nat) : Statement (.portStatus p tag port) := of_request rfl rfl rfl
theorem storeStatus (p : Port) (tag : Byte) (body : List Byte) : Statement (.storeStatus p tag body) := of_request rfl rfl rfl
theorem systemReset (p : Port) (tag : Byte) (body : List Byte) : Statement (.systemReset p tag body) := of_request rfl rfl rfl
theorem unknownRequestKind (p : Port) (tag : Byte) (kind : Byte) (body : List Byte) : Statement (.unknownRequestKind p tag kind body) := of_other rfl rfl
theorem ack (p : Port) (number : Byte) : Statement (.ack p number) := of_other rfl rfl
theorem nak (p : Port) (number : Byte) : Statement (.nak p number) := of_other rfl rfl
theorem inboundFrameError (p : Port) (tag : Option Byte) : Statement (.inboundFrameError p tag) := of_other rfl rfl
theorem transactionStart (p : Port) : Statement (.transactionStart p) := of_other rfl rfl
theorem transactionEnd (p : Port) : Statement (.transactionEnd p) := of_other rfl rfl
theorem frameShiftedOut (p : Port) : Statement (.frameShiftedOut p) := of_other rfl rfl
theorem timerExpiry (p : Port) : Statement (.timerExpiry p) := of_other rfl rfl
theorem atnPulseEnd (p : Port) : Statement (.atnPulseEnd p) := of_other rfl rfl
theorem deliveryChoice (p : Port) : Statement (.deliveryChoice p) := of_other rfl rfl
theorem routeTableSweep (p : Port) : Statement (.routeTableSweep p) := of_other rfl rfl
theorem grantTableSweep (p : Port) : Statement (.grantTableSweep p) := of_other rfl rfl
theorem inletTableSweep (p : Port) : Statement (.inletTableSweep p) := of_other rfl rfl
theorem sweepCompletion (p : Port) : Statement (.sweepCompletion p) := of_other rfl rfl
theorem powerOn : Statement (.powerOn) := of_other rfl rfl
theorem resetPinAssert : Statement (.resetPinAssert) := of_other rfl rfl
theorem resetPinRelease : Statement (.resetPinRelease) := of_other rfl rfl
theorem startupCompletion (strap : Bool) : Statement (.startupCompletion strap) := of_other rfl rfl
theorem byteReceived (p : Port) (byte : Byte) : Statement (.byteReceived p byte) := of_other rfl rfl

end Sys2Proof.Laws.RequestFrame
end

