-- ==== Sys2Proof/Laws/Rules.lean ====
section
/-! SUPPORT. The relations of Safety.lean and the operations of the model that carry them out: from a derivation of a relation, what
the operation answers. Proofs about a command take the derivation the statement gives and rewrite with these. -/

namespace Sys2Proof.Machine

/-! ### Copies and grants that cease -/

theorem State.lowerWindow_eq {s : State} {w : Fin 32} {x : Window} (h : s.window w = some x) :
    s.lowerWindow w = s.setWindow w x.lowered := by
  simp only [State.lowerWindow, h, Window.lowered]
  split <;> rfl

/-- A copy of a family that is not FREE ceases: its count falls and its notices are called for. -/
theorem State.endCopy_eq {s : State} {f : Fin 256} {x : Family} (p : Port) (reason : RouteDropReason)
    (h : s.family f = some x) : s.endCopy f p reason = (s.setFamily f x.lowered, x.endCalls f p reason) := by
  simp only [State.endCopy, State.lowerFamily, State.routeDropped, h, Family.lowered, Family.endCalls, Family.call]
  by_cases c : x.copies ≤ 1 <;> simp [c]

theorem State.lowerFamily_eq {s : State} {f : Fin 256} {x : Family} (h : s.family f = some x) :
    (s.lowerFamily f).1 = s.setFamily f x.lowered := by
  simp only [State.lowerFamily, h, Family.lowered]
  split <;> rfl

/-- A copy of a REVOKED family ceases without a notice (R46, R47). -/
theorem State.lowerFamily_revoked {s : State} {f : Fin 256} {x : Family} (h : s.family f = some x) (hr : x.state = .revoked) :
    s.lowerFamily f = (s.setFamily f x.lowered, []) := by
  simp only [State.lowerFamily, h, Family.lowered, hr]
  by_cases c : x.copies ≤ 1 <;> simp [c]

theorem CopiesEnd.freeReserved {p : Port} {reason : RouteDropReason} {s t : State} {es : List Enclosure}
    {calls : List NoticeCall} (h : CopiesEnd p reason Enclosure.isReserved s es calls t) :
    s.freeReserved p reason es = (t, calls) := by
  induction h with
  | done => rfl
  | @route _ _ f _ _ _ st x _ _ hw hf _ ih =>
    cases st with
    | reserved i =>
      have e := State.endCopy_eq (s := State.setRoute _ p i none) p reason hf
      simp only [State.slotFreed] at ih
      simp only [State.freeReserved, e, ih]
    | inTransit => cases hw
    | dropped => cases hw
  | @grant _ _ w _ _ st x _ _ hw hf _ ih =>
    cases st with
    | reserved i =>
      have e := State.lowerWindow_eq (s := State.setGrant _ p i none) hf
      simp only [State.freeReserved, e]
      exact ih
    | inTransit => cases hw
    | dropped => cases hw
  | @other _ _ e _ _ hw _ ih =>
    cases e with
    | route _ _ _ _ st => cases st <;> first | exact ih | cases hw
    | grant _ _ _ st => cases st <;> first | exact ih | cases hw

theorem CopiesEnd.endEnclosures {p : Port} {reason : RouteDropReason} {s t : State} {es : List Enclosure}
    {calls : List NoticeCall} (h : CopiesEnd p reason Enclosure.isInTransit s es calls t) :
    s.endEnclosures p reason es = (t, calls) := by
  induction h with
  | done => rfl
  | @route s _ f _ _ _ st x _ _ hw hf _ ih =>
    cases st with
    | inTransit =>
      simp only [State.slotFreed] at ih
      simp only [State.endEnclosures, State.endCopy_eq p reason hf, ih]
    | reserved => cases hw
    | dropped => cases hw
  | @grant s _ w _ _ st x _ _ hw hf _ ih =>
    cases st with
    | inTransit =>
      simp only [State.endEnclosures, State.lowerWindow_eq hf]
      exact ih
    | reserved => cases hw
    | dropped => cases hw
  | @other _ _ e _ _ hw _ ih =>
    cases e with
    | route _ _ _ _ st => cases st <;> first | exact ih | cases hw
    | grant _ _ _ st => cases st <;> first | exact ih | cases hw

/-! ### The first free slot -/

theorem firstFrom_eq {α : Type} {p : α → Bool} {xs : List α} {k n : Nat} (hn : n < xs.length) (hp : p xs[n] = true)
    (hl : ∀ m (hm : m < n), p (xs[m]'(Nat.lt_trans hm hn)) = false) : firstFrom p xs k = some (k + n) := by
  induction xs generalizing k n with
  | nil => exact absurd hn (Nat.not_lt_zero n)
  | cons x xs ih =>
    cases n with
    | zero => simp only [firstFrom, List.getElem_cons_zero] at hp ⊢; simp [hp]
    | succ n =>
      have h0 : p x = false := hl 0 (Nat.succ_pos n)
      simp only [firstFrom, h0, Bool.false_eq_true, if_false]
      rw [ih (k := k + 1) (n := n) (by simpa using hn) (by simpa using hp) fun m hm => by
        simpa using hl (m + 1) (Nat.succ_lt_succ hm)]
      congr 1; omega

theorem firstFrom_none {α : Type} {p : α → Bool} {xs : List α} {k : Nat} (h : ∀ x ∈ xs, p x = false) :
    firstFrom p xs k = none := by
  induction xs generalizing k with
  | nil => rfl
  | cons x xs ih =>
    simp only [firstFrom, h x (List.mem_cons_self ..), Bool.false_eq_true, if_false]
    exact ih fun y hy => h y (List.mem_cons_of_mem _ hy)

/-- The lowest-numbered record that satisfies a test. -/
theorem Tab.first_eq {n : Nat} {α : Type} {p : α → Bool} {t : Tab n α} {i : Fin n} (hi : p (t.get i) = true)
    (hl : ∀ j, j < i → p (t.get j) = false) : t.first p = some i := by
  have h : firstFrom p t.cells 0 = some (0 + i.val) :=
    firstFrom_eq (by rw [t.len]; exact i.isLt) hi fun m hm => hl ⟨m, Nat.lt_trans hm i.isLt⟩ hm
  simp [Tab.first, h, fin?, i.isLt]

theorem Tab.first_none {n : Nat} {α : Type} {p : α → Bool} {t : Tab n α} (h : ∀ i, p (t.get i) = false) :
    t.first p = none := by
  have e : firstFrom p t.cells 0 = none := firstFrom_none fun x hx => by
    obtain ⟨k, hk, rfl⟩ := List.getElem_of_mem hx
    exact h ⟨k, by rw [← t.len]; exact hk⟩
  simp [Tab.first, e]

theorem State.freeRoute_eq {s : State} {p : Port} {i : Fin 63} (h : s.route p i = none)
    (hl : ∀ j, j < i → s.route p j ≠ none) : s.freeRoute p = some i :=
  Tab.first_eq (by have e : (s.col p).routes.get i = none := h
                   rw [e]; rfl)
    fun j hj => by
      have e : (s.col p).routes.get j ≠ none := hl j hj
      cases k : (s.col p).routes.get j with
      | none => exact absurd k e
      | some => rfl

theorem State.freeRoute_none {s : State} {p : Port} (h : ∀ i, s.route p i ≠ none) : s.freeRoute p = none :=
  Tab.first_none fun i => by
    have e : (s.col p).routes.get i ≠ none := h i
    cases k : (s.col p).routes.get i with
    | none => exact absurd k e
    | some => rfl

theorem State.freeGrant_eq {s : State} {p : Port} {i : Fin 8} (h : s.grant p i = none)
    (hl : ∀ j, j < i → s.grant p j ≠ none) : s.freeGrant p = some i :=
  Tab.first_eq (by have e : (s.col p).grants.get i = none := h
                   rw [e]; rfl)
    fun j hj => by
      have e : (s.col p).grants.get j ≠ none := hl j hj
      cases k : (s.col p).grants.get j with
      | none => exact absurd k e
      | some => rfl

theorem State.freeGrant_none {s : State} {p : Port} (h : ∀ i, s.grant p i ≠ none) : s.freeGrant p = none :=
  Tab.first_none fun i => by
    have e : (s.col p).grants.get i ≠ none := h i
    cases k : (s.col p).grants.get i with
    | none => exact absurd k e
    | some => rfl

theorem State.freeFamily_eq {s : State} {f : Fin 256} (h : s.family f = none) (hl : ∀ g, g < f → s.family g ≠ none) :
    s.freeFamily = some f :=
  Tab.first_eq (by have e : s.families.get f = none := h
                   rw [e]; rfl)
    fun g hg => by
      have e : s.families.get g ≠ none := hl g hg
      cases k : s.families.get g with
      | none => exact absurd k e
      | some => rfl

/-- Some record is found when one satisfies the test. -/
theorem Tab.first_some {n : Nat} {α : Type} {p : α → Bool} {t : Tab n α} {i : Fin n} (h : p (t.get i) = true) :
    t.first p ≠ none := by
  have hb : ∃ j : Fin n, p (t.get j) = true := ⟨i, h⟩
  have := Tab.first_eq (p := p) (t := t) (i := Fin.find (fun j => p (t.get j) = true) hb) (Fin.find_spec hb)
    fun j hj => by simpa using Fin.find_min hb hj
  simp [this]

theorem State.freeFamily_some {s : State} {f : Fin 256} (h : s.family f = none) : s.freeFamily ≠ none :=
  Tab.first_some (i := f) (by have e : s.families.get f = none := h
                              rw [e]; rfl)

theorem State.freeFamily_none {s : State} (h : ∀ f, s.family f ≠ none) : s.freeFamily = none :=
  Tab.first_none fun f => by
    have e : s.families.get f ≠ none := h f
    cases k : s.families.get f with
    | none => exact absurd k e
    | some => rfl

/-! ### Settlement and installation -/

theorem Settles.settleAll {p : Port} {s t : State} {es es' : List Enclosure} {calls : List NoticeCall}
    (h : Settles p s es es' calls t) : s.settleAll p es = (es', t, calls) := by
  induction h with
  | done => rfl
  | routeRevoked hf hr _ ih =>
    simp [State.settleAll, State.settleRoute, hf, hr, State.lowerFamily_revoked hf hr, ih]
  | routeNoSlot hf ha hs _ ih =>
    simp [State.settleAll, State.settleRoute, hf, ha, State.freeRoute_none hs, State.endCopy_eq p _ hf, ih]
  | routeReserved hf ha hi hl _ ih =>
    simp [State.settleAll, State.settleRoute, hf, ha, State.freeRoute_eq hi hl, ih]
  | grantRevoked hw hr _ ih =>
    simp [State.settleAll, State.settleGrant, hw, hr, State.lowerWindow_eq hw, ih]
  | grantNoSlot hw ho hs _ ih =>
    simp [State.settleAll, State.settleGrant, hw, ho, State.freeGrant_none hs, State.lowerWindow_eq hw, ih]
  | grantReserved hw ho hi hl _ ih =>
    simp [State.settleAll, State.settleGrant, hw, ho, State.freeGrant_eq hi hl, ih]

theorem Installs.installAll {p : Port} {sender : Sender} {s t : State} {es : List Enclosure} {calls : List NoticeCall}
    (h : Installs p sender s es calls t) : s.installAll p sender es = (t, calls) := by
  induction h with
  | done => rfl
  | @routeLive _ _ f mode _ _ _ x _ _ _ hf ha hr _ _ ih =>
    cases mode <;> cases sender <;>
      simp [State.installAll, State.installRoute, hf, ha, hr, ih, Family.installCalls, Family.call]
  | routeStale hf ha hr _ _ ih => simp [State.installAll, State.installRoute, hf, ha, hr, ih]
  | grantLive hw ho hg _ _ ih => simp [State.installAll, State.installGrant, hw, ho, hg, ih]
  | grantStale hw ho hg _ _ ih => simp [State.installAll, State.installGrant, hw, ho, hg, ih]
  | routeDropped _ ih => exact ih
  | grantDropped _ ih => exact ih

/-! ### SEND -/

theorem Encloses.encloseAll {p : Port} {s t : State} {xs : List Spec} {es : List Enclosure} (h : Encloses p s xs es t) :
    s.encloseAll p xs = (t, es) := by
  induction h with
  | done => rfl
  | routeCopy hr hf _ ih =>
    simp [State.encloseAll, State.enclose, hr, hf, State.raiseFamily, ih, RouteRights.meet, narrowQuota]
  | routePass hr hf _ ih => simp [State.encloseAll, State.enclose, hr, hf, ih, RouteRights.meet, narrowQuota]
  | grantCopy hg hw _ ih => simp [State.encloseAll, State.enclose, hg, hw, State.raiseWindow, ih, GrantRights.meet]
  | grantPass hg _ ih => simp [State.encloseAll, State.enclose, hg, ih, GrantRights.meet]

theorem Mints.mint {p : Port} {number : Nat} {s t : State} {reply : Option (Fin 16)} {minted : Option (Fin 256)}
    (h : Mints p number s reply minted t) : s.mint p number reply = (t, minted) := by
  cases h with
  | nothing => rfl
  | minted hf hl => simp [State.mint, State.freeFamily_eq hf hl]

theorem SpecVerdict.checkSpec {s : State} {p : Port} {sending : Fin 63} {earlier : List Source} {x : Spec}
    {v : Option Status} (h : SpecVerdict s p sending earlier x v) : s.checkSpec p sending earlier x = v := by
  cases h with
  | routeFree h => simp [State.checkSpec, State.checkRouteSpec, h]
  | routeReserved h hs => simp [State.checkSpec, State.checkRouteSpec, h, hs, CopyState.refusal]
  | routeStale h hs => simp [State.checkSpec, State.checkRouteSpec, h, hs, CopyState.refusal]
  | @routeNoRight i mode w q r h hs hr =>
    have e : r.rights.allows mode = false := by
      cases mode <;> simp [RouteRights.holds, RouteRights.allows] at hr ⊢ <;> exact hr
    simp [State.checkSpec, State.checkRouteSpec, h, hs, CopyState.refusal, e]
  | @routeSending i mode w q r h hs hr hm hi =>
    have e : r.rights.allows mode = true := by
      cases mode <;> simp [RouteRights.holds, RouteRights.allows] at hr ⊢ <;> exact hr
    subst hm
    simp [State.checkSpec, State.checkRouteSpec, h, hs, CopyState.refusal, e, hi.symm]
  | @routeTwice i mode w q r h hs hr he =>
    have e : r.rights.allows mode = true := by
      cases mode <;> simp [RouteRights.holds, RouteRights.allows] at hr ⊢ <;> exact hr
    simp [State.checkSpec, State.checkRouteSpec, h, hs, CopyState.refusal, e, he]
  | @routePasses i mode w q r h hs hr hm he =>
    have e : r.rights.allows mode = true := by
      cases mode <;> simp [RouteRights.holds, RouteRights.allows] at hr ⊢ <;> exact hr
    simp [State.checkSpec, State.checkRouteSpec, h, hs, CopyState.refusal, e, hm, he]
  | grantFree h => simp [State.checkSpec, State.checkGrantSpec, h]
  | grantReserved h hs => simp [State.checkSpec, State.checkGrantSpec, h, hs, CopyState.refusal]
  | grantStale h hs => simp [State.checkSpec, State.checkGrantSpec, h, hs, CopyState.refusal]
  | grantNoShare h hs hw hn => simp [State.checkSpec, State.checkGrantSpec, h, hs, CopyState.refusal, hw, hn]
  | grantTwice h hs hw hn he => simp [State.checkSpec, State.checkGrantSpec, h, hs, CopyState.refusal, hw, hn, he]
  | grantPasses h hs hw hn he => simp [State.checkSpec, State.checkGrantSpec, h, hs, CopyState.refusal, hw, hn, he]

/-- Check 6 answers what the rules say of the specs. -/
theorem SpecsVerdict.checkSpecs {s : State} {p : Port} {sending : Fin 63} {earlier : List Source}
    {xs : List Spec} {v : Option Status} (h : SpecsVerdict s p sending earlier xs v) :
    s.checkSpecs p sending earlier xs = v := by
  induction h with
  | passed => rfl
  | refused hx => simp only [State.checkSpecs, hx.checkSpec]
  | next hx _ ih => simp only [State.checkSpecs, hx.checkSpec, ih]

/-- A refusal of check 6 raises no counter (R64). -/
theorem SpecsVerdict.refusal {s : State} {p : Port} {sending : Fin 63} {earlier : List Source}
    {xs : List Spec} {st : Status} (h : SpecsVerdict s p sending earlier xs (some st)) :
    st ≠ .inletFull ∧ st ≠ .storeFull := by
  generalize hv : some st = v at h
  induction h with
  | passed => cases hv
  | refused hx => cases hv; cases hx <;> exact ⟨nofun, nofun⟩
  | next _ _ ih => exact ih hv

theorem State.checkStore_none {s : State} {lane : Fin 4} {n : Nat} (h : s.storeTakes lane n) :
    s.checkStore lane n = none := by
  obtain ⟨h1, h2, h3⟩ := h
  simp only [State.checkStore, State.hasRoom, State.reserveAllows, cellsFor, h1, h2, decide_true, Bool.and_self,
    Bool.true_and, ite_eq_left_iff, Bool.not_eq_true, Bool.or_eq_false_iff]
  rintro ⟨a, b⟩
  rcases h3 with h3 | ⟨h3, h4⟩
  · simp [h3] at a
  · simp [h3, h4] at b

theorem State.checkStore_full {s : State} {lane : Fin 4} {n : Nat} (h : ¬ s.storeTakes lane n) :
    s.checkStore lane n = some .storeFull := by
  simp only [State.checkStore, ite_eq_right_iff]
  intro e
  refine absurd ?_ h
  simp only [State.hasRoom, State.reserveAllows, cellsFor, Bool.and_eq_true, Bool.or_eq_true, decide_eq_true_eq] at e
  exact ⟨e.1.1, of_decide_eq_true e.1.2, e.2.imp id fun h => ⟨of_decide_eq_true h.1, h.2⟩⟩

theorem State.checkReply_none {s : State} {p : Port} {reply : Option (Fin 16)} (h : s.replyPasses p reply) :
    s.checkReply p reply = none := by
  cases reply with
  | none => rfl
  | some n =>
    obtain ⟨h1, h2, f, h3⟩ := h n rfl
    have e := State.freeFamily_some h3
    cases k : s.freeFamily with
    | none => exact absurd k e
    | some g => simp [State.checkReply, h1, h2, k]

/-! ### Revocation of several at once -/

theorem mem_allFrom {α : Type} {p : α → Bool} {xs : List α} {k m : Nat} :
    m ∈ allFrom p xs k ↔ ∃ n, ∃ h : n < xs.length, m = k + n ∧ p xs[n] = true := by
  induction xs generalizing k with
  | nil => simp [allFrom]
  | cons x xs ih =>
    have e : m ∈ allFrom p (x :: xs) k ↔ (m = k ∧ p x = true) ∨ m ∈ allFrom p xs (k + 1) := by
      simp only [allFrom]
      split <;> simp [*]
    rw [e, ih]
    constructor
    · rintro (⟨rfl, h⟩ | ⟨n, h, rfl, hp⟩)
      · exact ⟨0, Nat.succ_pos _, rfl, h⟩
      · exact ⟨n + 1, Nat.succ_lt_succ h, by omega, hp⟩
    · rintro ⟨n, h, rfl, hp⟩
      cases n with
      | zero => exact .inl ⟨rfl, hp⟩
      | succ n => exact .inr ⟨n, Nat.lt_of_succ_lt_succ h, by omega, hp⟩

theorem Tab.mem_matching {n : Nat} {α : Type} {p : α → Bool} {t : Tab n α} {i : Fin n} :
    i ∈ t.matching p ↔ p (t.get i) = true := by
  simp only [Tab.matching, List.mem_filterMap, mem_allFrom, Nat.zero_add]
  constructor
  · rintro ⟨m, ⟨k, hk, rfl, hp⟩, hi⟩
    have hn : m < n := by rw [← t.len]; exact hk
    simp only [fin?, hn, dif_pos, Option.some.injEq] at hi
    subst hi
    exact hp
  · intro h
    exact ⟨i.val, ⟨i.val, by rw [t.len]; exact i.isLt, rfl, h⟩, by simp [fin?, i.isLt]⟩

theorem Tab.map_self {n : Nat} {α : Type} (t : Tab n α) : (t.map fun x => x) = t :=
  Tab.ext_get fun i => by simp

/-- What the revocation of the families of a list leaves, none of them FREE. -/
theorem State.revokeFamilies_eq {s : State} {fs : List (Fin 256)} (h : ∀ f ∈ fs, s.family f ≠ none) :
    (∀ f, (s.revokeFamilies fs).family f = (s.family f).map fun x => if f ∈ fs then { x with state := .revoked } else x) ∧
    s.revokeFamilies fs = { s with
      families := (s.revokeFamilies fs).families
      columns := s.columns.map fun c => { c with routes := c.routes.map fun slot => slot.map fun r =>
        if r.state = .live ∧ r.family ∈ fs then { r with state := .stale } else r } } := by
  induction fs generalizing s with
  | nil =>
    refine ⟨fun f => by simp [State.revokeFamilies], ?_⟩
    simp [State.revokeFamilies, Tab.map_self]
  | cons g gs ih =>
    obtain ⟨x, hx⟩ := Option.ne_none_iff_exists'.1 (h g (List.mem_cons_self ..))
    have e : s.revokeFamilies (g :: gs) = (s.revokeFamily g).revokeFamilies gs := rfl
    have hg : ∀ f, (s.revokeFamily g).family f = if f = g then some { x with state := .revoked } else s.family f := fun f => by
      simp only [State.revokeFamily, hx]
      exact Tab.get_put ..
    have hn : ∀ f ∈ gs, (s.revokeFamily g).family f ≠ none := fun f hf => by
      rw [hg]; split
      · exact nofun
      · exact h f (List.mem_cons_of_mem _ hf)
    obtain ⟨i1, i2⟩ := ih hn
    rw [e]
    refine ⟨fun f => ?_, ?_⟩
    · rw [i1, hg]
      by_cases c : f = g
      · subst c; simp [hx]
      · simp [c]
    · rw [i2]
      have hc : s.revokeFamily g = { s with
          families := (s.revokeFamily g).families, columns := s.columns.map fun c => { c with routes := c.routes.map (staleRoute g) } } := by
        simp only [State.revokeFamily, hx]
        rfl
      rw [hc]
      congr 1
      refine Tab.ext_get fun i => ?_
      simp only [Tab.get_map]
      congr 1
      refine Tab.ext_get fun j => ?_
      simp only [Tab.get_map]
      cases (s.columns.get i).routes.get j with
      | none => rfl
      | some r =>
        simp only [staleRoute, Option.map_some, List.mem_cons]
        by_cases h1 : r.state = .live <;> by_cases h2 : r.family = g <;> simp [h1, h2]

/-- The ACTIVE families a test picks revoked, as the rule says it (R52). -/
theorem State.revokeFamilies_active (s : State) (pick : Family → Bool) :
    s.revokeFamilies (s.activeFamilies pick) = s.familiesRevoked pick := by
  have hm : ∀ f, f ∈ s.activeFamilies pick ↔ (s.family f).any (fun x => decide (x.state = .active) && pick x) = true :=
    fun f => by
      simp only [State.activeFamilies, Tab.mem_matching, State.family]
      cases s.families.get f <;> simp
  obtain ⟨h1, h2⟩ := State.revokeFamilies_eq (s := s) (fs := s.activeFamilies pick) fun f hf => by
    rw [hm] at hf
    intro hn
    simp [hn] at hf
  rw [h2]
  simp only [State.familiesRevoked, hm]
  congr 1
  refine Tab.ext_get fun f => ?_
  have e := h1 f
  simp only [State.family] at e
  rw [e, Tab.get_map]
  simp only [hm, State.family]
  cases s.families.get f with
  | none => rfl
  | some x => simp

/-- What the revocation of the windows of a list leaves, none of them FREE. -/
theorem State.revokeWindows_eq {s : State} {ws : List (Fin 32)} (h : ∀ w ∈ ws, s.window w ≠ none) :
    (∀ w, (s.revokeWindows ws).window w = (s.window w).map fun x => if w ∈ ws then { x with state := .revoked } else x) ∧
    s.revokeWindows ws = { s with
      windows := (s.revokeWindows ws).windows
      columns := s.columns.map fun c => { c with
        grants := c.grants.map fun slot => slot.map fun g =>
          if g.state = .live ∧ g.window ∈ ws then { g with state := .stale } else g
        stream := c.stream.map fun x => if x.state ≠ .broken ∧ x.window ∈ ws then { x with state := .broken } else x } } := by
  induction ws generalizing s with
  | nil =>
    refine ⟨fun f => by simp [State.revokeWindows], ?_⟩
    simp [State.revokeWindows, Tab.map_self]
  | cons g gs ih =>
    obtain ⟨x, hx⟩ := Option.ne_none_iff_exists'.1 (h g (List.mem_cons_self ..))
    have e : s.revokeWindows (g :: gs) = (s.revokeWindow g).revokeWindows gs := rfl
    have hg : ∀ f, (s.revokeWindow g).window f = if f = g then some { x with state := .revoked } else s.window f := fun f => by
      simp only [State.revokeWindow, hx]
      exact Tab.get_put ..
    have hn : ∀ f ∈ gs, (s.revokeWindow g).window f ≠ none := fun f hf => by
      rw [hg]; split
      · exact nofun
      · exact h f (List.mem_cons_of_mem _ hf)
    obtain ⟨i1, i2⟩ := ih hn
    rw [e]
    refine ⟨fun f => ?_, ?_⟩
    · rw [i1, hg]
      by_cases c : f = g
      · subst c; simp [hx]
      · simp [c]
    · rw [i2]
      have hc : s.revokeWindow g = { s with
          windows := (s.revokeWindow g).windows
          columns := s.columns.map fun c => { c with grants := c.grants.map (staleGrant g), stream := breakStream g c.stream } } := by
        simp only [State.revokeWindow, hx]
        rfl
      rw [hc]
      congr 1
      refine Tab.ext_get fun i => ?_
      simp only [Tab.get_map]
      congr 1
      · cases (s.columns.get i).stream with
        | none => rfl
        | some x =>
          simp only [breakStream, Option.map_some, List.mem_cons]
          by_cases h1 : x.state = .broken <;> by_cases h2 : x.window = g <;> simp [h1, h2]
      · refine Tab.ext_get fun j => ?_
        simp only [Tab.get_map]
        cases (s.columns.get i).grants.get j with
        | none => rfl
        | some r =>
          simp only [staleGrant, Option.map_some, List.mem_cons]
          by_cases h1 : r.state = .live <;> by_cases h2 : r.window = g <;> simp [h1, h2]

/-- The OPEN windows of an owner and generation revoked, as the rule says it (R135, R145). -/
theorem State.revokeWindows_open (s : State) (p : Port) (generation : Nat) :
    s.revokeWindows (s.openWindows p generation) =
      s.windowsRevoked fun x => decide (x.owner = p ∧ x.generation = generation) := by
  have hm : ∀ w, w ∈ s.openWindows p generation ↔ (s.window w).any (fun x =>
      decide (x.state = .opened) && decide (x.owner = p ∧ x.generation = generation)) = true := fun w => by
    simp only [State.openWindows, Tab.mem_matching, State.window]
    cases s.windows.get w <;> simp [and_assoc]
  obtain ⟨h1, h2⟩ := State.revokeWindows_eq (s := s) (ws := s.openWindows p generation) fun w hw => by
    rw [hm] at hw
    intro hn
    simp [hn] at hw
  rw [h2]
  simp only [State.windowsRevoked, hm]
  congr 1
  refine Tab.ext_get fun w => ?_
  have e := h1 w
  simp only [State.window] at e
  rw [e, Tab.get_map]
  simp only [hm, State.window]
  cases s.windows.get w with
  | none => rfl
  | some x => simp

/-! ### The start of a withdrawal -/

theorem State.onHead_eq (s : State) (p : Port) (i : Fin 16) (f : Descriptor → Descriptor) :
    s.onHead p i f = s.onInlet p i fun x => { x with queue := x.queue.modifyHead f } := by
  have e : (fun x : Inlet => match x.queue with
      | d :: ds => { x with queue := f d :: ds }
      | [] => x) = fun x => { x with queue := x.queue.modifyHead f } := by
    funext x
    obtain ⟨_, _, _, _, q, _, _⟩ := x
    cases q <;> rfl
  exact congrArg (s.onInlet p i) e

theorem State.current_eq {s : State} {p : Port} {i : Fin 16} {d : Descriptor} {rest : List Descriptor}
    (hc : (s.engine p).current = some i) (hq : (s.inlet p i).queue = d :: rest) : s.current p = some (i, d) := by
  simp only [State.current, hc, hq]

theorem Aborts.abortEngine {p : Port} {s t : State} (h : Aborts p s t) : s.abortEngine p = t := by
  cases h with
  | idle h => simp only [State.abortEngine, h, if_true]
  | busy hs hc hq hf =>
    simp only [State.abortEngine, hs, if_false, State.current_eq hc hq, hf.freeReserved, State.onHead_eq]
    rfl

theorem State.portShare_eq (s : State) (p : Port) : s.portShare p = s.portCleared p := by
  have e : Outbound.dropResponse = fun o : Outbound =>
      match o.carried with
      | .response _ => { o with carried := .discarded }
      | .idle | .deliver _ | .discarded => o := by
    funext o
    obtain ⟨c, _, _⟩ := o
    cases c <;> rfl
  exact congrArg (fun f => (s.onCtl p fun c =>
    { c with responses := [], overrun := 0, outbound := c.outbound.map f }).setStream p none) e

/-- The start of a withdrawal, from the abort of the engine that the rules give (R118). -/
theorem Aborts.startWithdrawal {p : Port} {s u : State} {hello : Option HeldHello} {bye : Option Byte}
    (h : Aborts p (s.cutOff p hello bye) u) : s.startWithdrawal p hello bye = u.portCleared p := by
  have e : createdBy p (s.session p).generation =
      fun x => decide (x.creator = p ∧ x.generation = (s.session p).generation) := by
    funext x; simp [createdBy]
  simp only [State.startWithdrawal, State.revokeFamilies_active, State.revokeWindows_open, State.portShare_eq, e]
  rw [← h.abortEngine]
  rfl

/-! ### Messages destroyed -/

theorem State.destroy_eq {s u : State} {p : Port} {i : Fin 16} {d : Descriptor} {cause : DestroyCause}
    {calls : List NoticeCall} (earlier : List NoticeCall)
    (h : CopiesEnd p cause.route Enclosure.isInTransit ((s.takeOut p i d).decrement d.sender) d.enclosures calls u) :
    s.destroy p i d cause earlier = u.notifyAll (earlier ++ calls ++ d.undelivered cause.loss) := by
  simp only [State.destroy, h.endEnclosures]

/-- A port whose agent hears no notice keeps its column through the notices of an event (R16). -/
theorem State.notifyAll_deaf {s : State} {p : Port} (calls : List NoticeCall) (ha : (s.session p).state ≠ .attached)
    (hd : (s.session p).state ≠ .dormant) : (s.notifyAll calls).col p = s.col p := by
  induction calls generalizing s with
  | nil => rfl
  | cons c cs ih =>
    have e : (s.notify c).col p = s.col p := by
      by_cases hc : c.port = p
      · have : s.hears c = false := by simp [State.hears, hc, ha, hd]
        simp [State.notify, this]
      · have h := (NoticesApart.notify s c)
        have hp : p ≠ c.port := fun h => hc h.symm
        unfold State.notify
        split
        · split
          · simp [State.addNotice, State.place_eq, State.drawMessage, State.onSession, hp]
          · simp [State.loseNotice, State.onSession, State.onInlet, hp]
        · rfl
    have hs : (s.notify c).session p = s.session p := by simp only [State.session, e]
    have k := ih (s := s.notify c) (by rw [hs]; exact ha) (by rw [hs]; exact hd)
    exact k.trans e

theorem State.takeOut_inlet (s : State) (p : Port) (i : Fin 16) (d : Descriptor) :
    (s.takeOut p i d).inlet p i = { s.inlet p i with queue := (s.inlet p i).queue.erase d } := by
  simp [State.takeOut]

theorem filter_erase_head {α : Type} [DecidableEq α] {q : α → Bool} {xs ys : List α} {d : α} (h : xs.filter q = d :: ys) :
    xs.find? q = some d ∧ (xs.erase d).filter q = ys := by
  induction xs with
  | nil => cases h
  | cons x xs ih =>
    by_cases hx : q x = true
    · rw [List.filter_cons_of_pos hx] at h
      obtain ⟨rfl, rfl⟩ := List.cons.inj h
      exact ⟨by simp [hx], by simp⟩
    · rw [List.filter_cons_of_neg hx] at h
      obtain ⟨h1, h2⟩ := ih h
      have hd : q d = true := List.find?_some h1
      have hne : x ≠ d := fun e => hx (e ▸ hd)
      refine ⟨by simp [hx, h1], ?_⟩
      rw [List.erase_cons_tail (by simpa using hne), List.filter_cons_of_neg hx, h2]

/-- DISCARD of an inlet other than inlet 0 destroys its QUEUED messages, oldest first (R27). -/
theorem Destroys.discardQueued {p : Port} {i : Fin 16} {s t : State} {ds : List Descriptor} {k : Nat} (hi : i ≠ 0)
    (hq : (s.inlet p i).queue.filter (fun d => decide (d.lifecycle = .queued)) = ds) (hk : ds.length ≤ k)
    (h : Destroys p .discard s (ds.map fun d => (i, d)) t) : State.discardQueued p i k s = (t, ds.length) := by
  induction ds generalizing s k with
  | nil =>
    cases h
    cases k with
    | zero => rfl
    | succ k =>
      have e := List.find?_eq_none.2 (List.filter_eq_nil_iff.1 hq)
      simp only [State.discardQueued, e, List.length_nil]
  | cons d ds ih =>
    cases h with
    | @next _ _ u _ _ _ calls hc ht =>
      cases k with
      | zero => exact absurd hk (Nat.not_succ_le_zero _)
      | succ k =>
        obtain ⟨h1, h2⟩ := filter_erase_head hq
        have e := State.destroy_eq (s := s) (cause := .discard) [] hc
        rw [List.nil_append] at e
        have hin : ((s.destroy p i d .discard []).inlet p i).queue = (s.inlet p i).queue.erase d := by
          rw [e, NoticesApart.inletOther (NoticesApart.notifyAll _ _) p hi]
          have k1 := TablesOnly.endEnclosures ((s.takeOut p i d).decrement d.sender) p DestroyCause.discard.route d.enclosures
          rw [show ((s.takeOut p i d).decrement d.sender).endEnclosures p DestroyCause.discard.route d.enclosures = (u, calls) from
            hc.endEnclosures] at k1
          rw [k1.inlet, (TablesOnly.decrement _ _).inlet, State.takeOut_inlet]
        have k2 := ih (s := s.destroy p i d .discard []) (k := k) (by rw [hin]; exact h2) (Nat.le_of_succ_le_succ hk)
          (by rw [e]; exact ht)
        simp only [State.discardQueued, h1, k2, List.length_cons]

/-- The destruction of two runs of messages, one after the other. -/
theorem Destroys.split {p : Port} {cause : DestroyCause} {s t : State} {xs ys : List (Fin 16 × Descriptor)}
    (h : Destroys p cause s (xs ++ ys) t) : ∃ u, Destroys p cause s xs u ∧ Destroys p cause u ys t := by
  induction xs generalizing s with
  | nil => exact ⟨s, .done s, h⟩
  | cons x xs ih =>
    cases h with
    | next hc ht =>
      obtain ⟨u, h1, h2⟩ := ih ht
      exact ⟨u, .next hc h1, h2⟩

/-- Every message of one inlet of a withdrawing agent destroyed, oldest first (R36 step 1). -/
theorem Destroys.sweepQueue {p : Port} {i : Fin 16} {s t : State} {ds : List Descriptor}
    (hs : (s.session p).state = .withdrawing) (hq : (s.inlet p i).queue = ds)
    (h : Destroys p .withdrawal s (ds.map fun d => (i, d)) t) :
    State.sweepQueue p i ds.length s = t ∧ (t.session p).state = .withdrawing ∧ (∀ j, j ≠ i → t.inlet p j = s.inlet p j) := by
  induction ds generalizing s with
  | nil => cases h; exact ⟨rfl, hs, fun _ _ => rfl⟩
  | cons d ds ih =>
    cases h with
    | @next _ _ u _ _ _ calls hc ht =>
      have e := State.destroy_eq (s := s) (cause := .withdrawal) [] hc
      rw [List.nil_append] at e
      have k1 := TablesOnly.endEnclosures ((s.takeOut p i d).decrement d.sender) p DestroyCause.withdrawal.route d.enclosures
      rw [show ((s.takeOut p i d).decrement d.sender).endEnclosures p DestroyCause.withdrawal.route d.enclosures = (u, calls) from
        hc.endEnclosures] at k1
      have ku : ∀ j, u.inlet p j = (s.takeOut p i d).inlet p j := fun j => by
        rw [k1.inlet, (TablesOnly.decrement _ _).inlet]
      have ks : u.session p = s.session p := by
        rw [k1.session, (TablesOnly.decrement _ _).session]; simp [State.takeOut]
      have kc : (s.destroy p i d .withdrawal []).col p = u.col p := by
        rw [e]; exact State.notifyAll_deaf _ (by rw [ks, hs]; decide) (by rw [ks, hs]; decide)
      have ki : ∀ j, (s.destroy p i d .withdrawal []).inlet p j = (s.takeOut p i d).inlet p j := fun j => by
        rw [← ku j]; simp only [State.inlet, kc]
      obtain ⟨h1, h2, h3⟩ := ih (s := s.destroy p i d .withdrawal [])
        (by simp only [State.session, kc]; rw [show (u.col p).session = u.session p from rfl, ks]; exact hs)
        (by rw [ki, State.takeOut_inlet, hq]; simp) (by rw [e]; exact ht)
      refine ⟨?_, h2, fun j hj => ?_⟩
      · simp only [List.length_cons, State.sweepQueue, hq]; exact h1
      · rw [h3 j hj, ki]; simp [State.takeOut, hj]

/-- Every message of the inlets of a list, inlet by inlet and oldest first (R36 step 1). -/
theorem Destroys.sweepInlets {p : Port} {s t : State} {is : List (Fin 16)} (hn : is.Nodup)
    (hs : (s.session p).state = .withdrawing)
    (h : Destroys p .withdrawal s (is.flatMap fun i => (s.inlet p i).queue.map fun d => (i, d)) t) :
    is.foldl (State.sweepInlet p) s = t := by
  induction is generalizing s with
  | nil => cases h; rfl
  | cons i is ih =>
    rw [List.flatMap_cons] at h
    obtain ⟨u, h1, h2⟩ := h.split
    obtain ⟨k1, k2, k3⟩ := h1.sweepQueue hs rfl
    rw [List.foldl_cons, show State.sweepInlet p s i = u from k1]
    obtain ⟨hi, hn⟩ := List.nodup_cons.1 hn
    refine ih hn k2 ?_
    have e : (is.flatMap fun j => (u.inlet p j).queue.map fun d => (j, d)) =
        is.flatMap fun j => (s.inlet p j).queue.map fun d => (j, d) :=
      List.flatMap_congr fun j hj => by rw [k3 j fun c => hi (c ▸ hj)]
    rw [e]; exact h2

/-! ### The form of a SEND -/

theorem fin?_val {n : Nat} (i : Fin n) : fin? n i.val = some i := by simp [fin?, i.isLt]

theorem formSpec_fields {x : Spec} (h : x.admissible) : formSpec x.fields = some x := by
  cases x with
  | route i mode rights quota =>
    obtain ⟨h1, h2⟩ := h
    obtain ⟨c, q⟩ := rights
    have hq : range? 0 Config.quotaMax quota = some quota := by simp [range?, Config.quotaMax, h2]
    have hi : routeSlot? (i.val + 1) = some i := by simp [routeSlot?, fin?_val]
    cases mode with
    | minted => exact absurd rfl h1
    | copy => cases c <;> cases q <;> simp [formSpec, Spec.fields, hi, hq, specMode?, routeRights?]
    | pass => cases c <;> cases q <;> simp [formSpec, Spec.fields, hi, hq, specMode?, routeRights?]
  | grant i mode rights =>
    obtain ⟨c, q⟩ := rights
    have hi := fin?_val i
    cases mode with
    | minted => exact absurd rfl h
    | copy => cases c <;> cases q <;> simp [formSpec, Spec.fields, hi, specMode?, grantRights?, range?]
    | pass => cases c <;> cases q <;> simp [formSpec, Spec.fields, hi, specMode?, grantRights?, range?]

theorem formSpecs_fields {xs : List Spec} (h : ∀ x ∈ xs, x.admissible) : formSpecs (xs.map Spec.fields) = some xs := by
  induction xs with
  | nil => rfl
  | cons x xs ih =>
    simp [formSpecs, formSpec_fields (h x (List.mem_cons_self ..)), ih fun y hy => h y (List.mem_cons_of_mem _ hy)]

/-- The fields of `sendCommand` are well made and spell its operands (R62, R63). -/
theorem formSend_sendCommand {i : Fin 63} {ret : Bool} {reply : Option (Fin 16)} {specs : List Spec} {body : List Byte}
    (hs : ∀ x ∈ specs, x.admissible) (hn : specs.length + reply.isSome.toNat ≤ 2) (hb : body.length ≤ 512) :
    formSend
      { slot := i.val + 1, ret := ret.toNat, mint := reply.isSome.toNat, replyInlet := reply.map Fin.val,
        specs := specs.map Spec.fields, bodyLength := body.length, body := body } =
      some { slot := i, ret := ret, reply := reply, specs := specs, body := body } := by
  have hi : routeSlot? (i.val + 1) = some i := by simp [routeSlot?, fin?_val]
  have hx := formSpecs_fields hs
  have hl : range? 0 Config.bodyMax body.length = some body.length := by simp [range?, Config.bodyMax, hb]
  cases reply with
  | none =>
    have hm : range? 0 2 specs.length = some specs.length := by simpa [range?] using hn
    cases ret <;> simp [formSend, hi, hx, hl, hm, flag?, formReply]
  | some n =>
    have hm : range? 0 2 (specs.length + 1) = some (specs.length + 1) := by simpa [range?] using hn
    cases ret <;> simp [formSend, hi, hx, hl, hm, flag?, formReply, fin?_val]

end Sys2Proof.Machine
end

