-- ==== Sys2Proof/Tests/Slice0.lean ====
section
/-! SUPPORT. Small tests with expected values from the spec (its worked sequences, its tables, its CRC check value), the checks of
WellFormed each refusing an ill-formed command, and for every statement with hypotheses a state and operands that meet them. -/

namespace Sys2Proof.Machine.Tests

set_option Elab.async false

/-! ### Commands that no frame can spell are refused by WellFormed -/

theorem test_wf_name_length : (Instr.hello 0 1 (.fields { agentClass := 0, name := [1, 2] })).wellFormed = false := by decide
theorem test_wf_byte_field : (Instr.dropRoute 0 1 (.fields 256)).wellFormed = false := by decide
theorem test_wf_two_byte_label :
    (Instr.createRoute 0 1 (.fields { inlet := 1, label := 65536, rights := 0, quota := 1, notify := 0 })).wellFormed
      = false := by decide
theorem test_wf_four_byte_offset :
    (Instr.createWindow 0 1 (.fields { base := 4294967296, limit := 0, share := 0 })).wellFormed = false := by decide
theorem test_wf_misshapen_that_has_a_shape : (Instr.setLane 0 1 (.misshapen [1, 2])).wellFormed = false := by decide
theorem test_wf_misshapen_send :
    (Instr.send 0 1 (.misshapen [1, 0, 0, 0, 0, 0])).wellFormed = false := by decide
theorem test_wf_unknown_kind_that_is_known : (Instr.unknownRequestKind 0 1 0x02 []).wellFormed = false := by decide
theorem test_wf_reply_without_mint :
    (Instr.send 0 1 (.fields
      { slot := 1, ret := 0, mint := 0, replyInlet := some 3, specs := [], bodyLength := 0, body := [] })).wellFormed = false := by decide
theorem test_wf_mint_without_reply :
    (Instr.send 0 1 (.fields
      { slot := 1, ret := 0, mint := 1, replyInlet := none, specs := [], bodyLength := 0, body := [] })).wellFormed = false := by decide
theorem test_wf_spec_field :
    (Instr.send 0 1 (.fields
      { slot := 1, ret := 0, mint := 0, replyInlet := none, bodyLength := 0, body := []
        specs := [{ kind := 0, slot := 300, mode := 0, rights := 0, quota := 0 }] })).wellFormed = false := by decide
theorem test_wf_body_too_long : (Instr.streamData 0 1 (List.replicate 560 0)).wellFormed = false := by decide +kernel
theorem test_wf_accepts : (Instr.setLane 7 255 (.fields { lane := 255, mode := 255 })).wellFormed = true := by decide

/-! ### Frames and numbers (R6, R160 to R163) -/

theorem test_table_words_spell_nothing : decodeTableWord 8 0x0D = none := rfl
theorem test_crc_check_value : crc16 [0x31, 0x32, 0x33, 0x34, 0x35, 0x36, 0x37, 0x38, 0x39] = 0x29B1 := by decide +kernel
theorem test_frame_setLane :
    frameCommand 4 [0xC3, 0x01, 0x09, 0x00, 0x03, 0x0D, 0x02, 0x01, 0xAE, 0x83]
      = .setLane 4 9 (.fields { lane := 2, mode := 1 }) := by decide +kernel
theorem test_frame_ack : frameCommand 3 [0xC3, 0x02, 0x00, 0x00, 0x01, 0x12, 0x54, 0xCD] = .ack 3 18 := by decide +kernel
theorem test_frame_nak : frameCommand 7 [0xC3, 0x03, 0x00, 0x00, 0x01, 0x21, 0xF8, 0xAC] = .nak 7 33 := by decide +kernel
theorem test_frame_bad_crc :
    frameCommand 3 [0xC3, 0x02, 0x05, 0x00, 0x01, 0x12, 0x54, 0xCC] = .inboundFrameError 3 (some 5) := by decide +kernel
theorem test_frame_send_with_reply :
    frameCommand 1 [0xC3, 0x01, 0x21, 0x00, 0x0A, 0x10, 0x07, 0x01, 0x01, 0x06, 0x00, 0x00, 0x02, 0xAA, 0xBB, 0x65, 0x36]
      = .send 1 0x21 (.fields { slot := 7, ret := 1, mint := 1, replyInlet := some 6, specs := [], bodyLength := 2,
                                body := [0xAA, 0xBB] }) := by decide +kernel
theorem test_frame_window :
    frameCommand 0 [0xC3, 0x01, 0x05, 0x00, 0x0A, 0x11, 0x00, 0x00, 0x00, 0x64, 0x00, 0x03, 0xFF, 0xFF, 0x01, 0x75, 0xF3]
      = .createWindow 0 5 (.fields { base := 100, limit := 262143, share := 1 }) := by decide +kernel
theorem test_frame_empty_body_has_kind_zero :
    frameCommand 0 [0xC3, 0x01, 0x01, 0x00, 0x00, 0xC5, 0x44] = .unknownRequestKind 0 1 0 [] := by decide +kernel
theorem test_frame_unknown_kind :
    frameCommand 0 [0xC3, 0x01, 0x02, 0x00, 0x02, 0x1D, 0x09, 0x85, 0x55] = .unknownRequestKind 0 2 0x1D [9] := by
  decide +kernel
theorem test_idle_frame_bytes :
    frameBytes 0x83 0 [1, 1, 1, 0, 0, 0, 0]
      = [0xC3, 0x83, 0x00, 0x00, 0x07, 0x01, 0x01, 0x01, 0x00, 0x00, 0x00, 0x00, 0xB5, 0xD7] := by decide +kernel
theorem test_number_wraps : nextNumber 65535 = 1 ∧ nextByteNumber 255 = 1 ∧ nextByteNumber 0 = 1 := by decide

/-! ### A small world -/

def agent (x : SessionState) (generation : Nat) : Session :=
  { Session.fresh generation with state := x }

def openInlet (lane : Fin 4) (depth : Nat) : Inlet :=
  { state := .opened, lane := lane, depth := depth, wake := true, queue := [], credit := 0, refusedFull := 0 }

def message (n : Nat) (sender : Sender) (p : Port) (i : Fin 16) : Descriptor :=
  { number := n, messageNumber := n + 1, sender := sender, targetPort := p, targetInlet := i, ret := true, label := 9,
    lifecycle := .queued, enclosures := [], bodyLength := 1, cells := [{ number := n, bytes := [7] }] }

def live (f : Fin 256) (quota outstanding serial : Nat) : RouteCopy :=
  { state := .live, family := f, rights := { copy := true, pass := true }, quota := quota, outstanding := outstanding,
    serial := serial }

def family (p : Port) (i : Fin 16) (copies : Nat) : Family :=
  { state := .active, kind := .ordinary, creator := p, generation := 1, targetInlet := i, label := 65535,
    rights := { copy := true, pass := true }, quota := 3, notify := { copied := true, passed := true, dropped := true },
    copies := copies }

/-- RUNNING with the strap high: agents 0, 1 and 2 ATTACHED, 3 DORMANT, 4 VACANT after 255 sessions, 5 and 6 WITHDRAWING, 5 with
its sweep at its end and a HELLO and a BYE held, 6 with no owner's step taken. -/
def running : State :=
  let s : State := { State.reset with controller := .running, supervisor := true }
  let s := [0, 1, 2].foldl (fun s p => (s.onSession p fun _ => agent .attached 1).onInlet p 0 fun _ => openInlet 0 16) s
  let s := (s.onSession 3 fun _ => agent .dormant 1).onInlet 3 0 fun _ => openInlet 0 16
  let s := s.onSession 4 fun _ => agent .vacant 255
  let s := s.onSession 5 fun _ =>
    { agent .withdrawing 255 with
      heldBye := some 9, heldHello := some { tag := 10, agentClass := 1, name := List.replicate 16 65 }
      sweep := some { routeTable := false, grantTable := false, inletTable := false } }
  s.onSession 6 fun _ =>
    { agent .withdrawing 1 with sweep := some { routeTable := true, grantTable := true, inletTable := true } }

/-- `running` with copies, windows, grants and messages. Agent 2's families: 5 on inlet 3 (lane 1), 7 on inlet 4 (lane 0), 8 on
inlet 5 (full), 9 on inlet 6 (CLOSED), 10 REVOKED. Agent 1 holds a copy of each. -/
def world : State :=
  let s := running.setFamily 5 (some (family 2 3 2))
  let s := s.setFamily 7 (some (family 2 4 1))
  let s := s.setFamily 8 (some (family 2 5 1))
  let s := s.setFamily 9 (some (family 2 6 1))
  let s := s.setFamily 10 (some { family 2 3 1 with state := .revoked })
  let s := s.onInlet 2 3 fun _ => openInlet 1 8
  let s := s.onInlet 2 4 fun _ => openInlet 0 64
  let s := s.onInlet 2 5 fun _ => { openInlet 0 1 with queue := [message 0 (.agent 1 1 2 3) 2 5] }
  let s := s.setRoute 1 0 (some (live 5 4 3 1))
  let s := s.setRoute 1 1 (some (live 7 4 0 2))
  let s := s.setRoute 1 2 (some (live 8 4 1 3))
  let s := s.setRoute 1 3 (some (live 9 4 1 4))
  let s := s.setRoute 1 4 (some { live 10 4 1 5 with state := .stale })
  let s := s.setRoute 1 5 (some { live 5 4 0 6 with state := .reserved })
  let s := s.setRoute 1 62 (some (live 5 4 4 7))
  let s := s.setWindow 3 (some
    { state := .opened, owner := 2, generation := 1, base := 100, limit := 199, share := true, grants := 2 })
  let s := s.setGrant 2 7 (some { state := .live, window := 3, rights := { read := true, write := true } })
  let s := s.setGrant 1 0 (some { state := .live, window := 3, rights := { read := false, write := true } })
  let s := s.setGrant 1 1 (some { state := .stale, window := 3, rights := { read := true, write := true } })
  s.setGrant 1 2 (some { state := .reserved, window := 3, rights := { read := true, write := true } })

/-- The window of `world`. -/
def window3 : Window :=
  { state := .opened, owner := 2, generation := 1, base := 100, limit := 199, share := true, grants := 2 }

/-- A stream of a port, at an end of the window. -/
def streaming (p : Port) (st : StreamState) (order : StreamOrder) (cursor : Int) : State :=
  world.setStream p (some { state := st, window := 3, base := 100, limit := 199, order := order, cursor := cursor })

/-- Port 2's engine delivers the message of inlet 5, delivery number 255, after `retries` retries. -/
def delivering (st : EngineState) (retries : Nat) : State :=
  (world.onEngine 2 fun e =>
    { e with state := st, current := some 5, number := 255, retries := retries,
             frame := some ((message 0 (.agent 1 1 2 3) 2 5).deliverFrame 255 5) }).onHead 2 5 fun d =>
    { d with lifecycle := .inDelivery }

/-- A transaction is under way at a port, carrying `c` with `progress` bytes gone. -/
def within (p : Port) (a : Assembly) (c : Carried) (progress : Nat) : State :=
  world.onCtl p fun x =>
    { x with
      sel := true, assembly := a
      outbound := some { carried := c, bytes := [0xC3, 0x81, 0, 0, 0, 1, 2], progress := progress } }

def full (p : Port) : State :=
  world.onCtl p fun c =>
    { c with responses := List.replicate 4 { tag := 1, kind := 0x05, status := .notAttached, result := .none } }

theorem takes (p : Port) : world.takesRequests p := by
  unfold State.takesRequests State.takesFrames
  revert p
  decide +kernel

theorem serves_1 : world.serves 1 := ⟨takes 1, by decide +kernel⟩
theorem serves_2 : world.serves 2 := ⟨takes 2, by decide +kernel⟩
theorem serves_3 : world.serves 3 := ⟨takes 3, by decide +kernel⟩
theorem supervised_0 : world.supervised 0 := ⟨⟨takes 0, by decide +kernel⟩, rfl, by decide +kernel⟩

/-- The message of `delivering` carries a route whose slot 3 stands RESERVED. -/
def installing (retries : Nat) : State :=
  ((delivering .sent retries).setRoute 2 2 (some { live 5 3 0 40 with state := .reserved })).onHead 2 5 fun d =>
    { d with enclosures := [.route 5 .copy { copy := true, pass := false } 3 (.reserved 2)] }

/-- The message of `installing`. -/
def delivered : Descriptor :=
  { message 0 (.agent 1 1 2 3) 2 5 with
    lifecycle := .inDelivery, enclosures := [.route 5 .copy { copy := true, pass := false } 3 (.reserved 2)] }

/-- A QUEUED message of three copies IN_TRANSIT: of an ACTIVE family, of a REVOKED one, and of a window. -/
def travelling : Descriptor :=
  { message 0 (.agent 1 1 2 3) 2 5 with
    enclosures := [.route 5 .copy { copy := true, pass := false } 3 .inTransit,
                   .route 10 .pass { copy := true, pass := true } 3 .inTransit,
                   .grant 3 .copy { read := true, write := false } .inTransit] }

/-- `world` with that message at the head of agent 2's inlet 5. -/
def transit : State := world.onInlet 2 5 fun x => { x with queue := [travelling] }

theorem installing_serves (n : Nat) : (installing n).serves 2 ∧ (installing n).supervised 0 := by
  have h2 := serves_2
  have h0 := supervised_0
  unfold State.supervised State.serves State.takesRequests State.takesFrames State.inTransaction State.ctl State.session
    State.col at *
  exact ⟨h2, h0⟩

/-- The next state of an outcome, for the tests. -/
def State.after (s : State) (i : Instr) : State :=
  match exec i s with
  | .next t => t
  | .fault _ => s
  | .refused _ => s

/-! ### One step each, with the spec's values -/

/-- Chapter 11, sequence 1, before its first step. -/
def sequence1 : State :=
  let s := running.setFamily 10 (some
    { family 3 4 1 with generation := 5, label := 1000, notify := { copied := false, passed := false, dropped := false } })
  let s := [0, 1, 2, 3, 4, 5, 6, 7, 8, 9, 11].foldl (fun s f => s.setFamily f (some (family 7 1 1))) s
  let s := s.onSession 1 fun _ => agent .attached 2
  let s := s.onSession 3 fun _ => agent .attached 5
  let s := s.onInlet 3 4 fun _ => openInlet 1 8
  let s := s.onInlet 1 6 fun _ => openInlet 1 8
  let s := s.setRoute 3 0 (some (live 11 1 0 20))
  let s := s.setRoute 1 6 (some { live 10 2 0 55 with rights := { copy := false, pass := false } })
  let s := s.onEngine 3 fun e => { e with number := 17 }
  s.onStore fun x => { x with nextMessage := 400, nextSerial := 90, freeCells := 3000, freeDescriptors := 900 }

def sequence1Send : Instr :=
  .send 1 50 (.fields { slot := 7, ret := 1, mint := 1, replyInlet := some 6, specs := [], bodyLength := 60,
                        body := List.replicate 60 7 })

/-- Sequence 1 step 1: SEND_OK with message 400 and minted family 12; 2,998 cells and 899 descriptors stay free. -/
theorem test_sequence1_send :
    let t := State.after sequence1 sequence1Send
    ((t.ctl 1).responses.map Response.result = [.send 400 (some 12)]) ∧
      t.store.freeCells = 2998 ∧ t.store.freeDescriptors = 899 ∧ t.store.nextMessage = 401 ∧
      (t.family 12).map (fun x => (x.kind, x.creator, x.generation, x.targetInlet, x.label, x.copies))
        = some (.single, 1, 2, 6, 400, 1) ∧
      (t.route 1 6).map RouteCopy.outstanding = some 1 := by decide +kernel

/-- Sequence 1 step 2: delivery 18, slot 2 RESERVED with {PASS}, quota 1, serial 90; the DELIVER frame is 86 bytes. -/
theorem test_sequence1_choice :
    let t := State.after (State.after sequence1 sequence1Send) (.deliveryChoice 3)
    (t.route 3 1).map (fun r => (r.state, r.rights, r.quota, r.serial))
        = some (.reserved, { copy := false, pass := true }, 1, 90) ∧
      (t.engine 3).number = 18 ∧ (t.engine 3).frame.map (fun f => f.bytes.length) = some 86 ∧
      t.store.nextSerial = 91 := by decide +kernel

/-- Sequence 4: the store at the reserve. Agent 6 of the spec is agent 1 here, agent 3 is agent 2. -/
def sequence4 (cells descriptors : Nat) (lane : Fin 4) : State :=
  let s := world.onStore fun x => { x with freeCells := cells, freeDescriptors := descriptors }
  let s := s.onInlet 2 3 fun _ => openInlet lane 8
  { s with config := { s.config with reserveCells := 16, reserveDescriptors := 4 } }

def sendOf (n : Nat) : Instr :=
  .send 1 1 (.fields { slot := 1, ret := 0, mint := 0, replyInlet := none, specs := [], bodyLength := n,
                       body := List.replicate n 0 })

def verdict (cells descriptors : Nat) (lane : Fin 4) (n : Nat) : List Status × Nat × Nat × Nat :=
  let t := State.after (sequence4 cells descriptors lane) (sendOf n)
  ((t.ctl 1).responses.map Response.status, t.store.freeCells, t.store.freeDescriptors, t.store.refused)

theorem test_sequence4_step1 : verdict 20 6 2 64 = ([.ok], 18, 5, 0) := by decide +kernel
theorem test_sequence4_step2 : verdict 18 5 2 96 = ([.storeFull], 18, 5, 1) := by decide +kernel
theorem test_sequence4_step3 : verdict 18 5 2 0 = ([.ok], 18, 4, 0) := by decide +kernel
theorem test_sequence4_step4 : verdict 18 4 1 0 = ([.storeFull], 18, 4, 1) := by decide +kernel
theorem test_sequence4_step5 : verdict 18 4 0 320 = ([.ok], 8, 3, 0) := by decide +kernel
theorem test_sequence4_step6 : verdict 8 3 0 512 = ([.storeFull], 8, 3, 1) := by decide +kernel

/-- Sequence 4 step 8: no free cell, so the ROUTE_DROPPED is lost and both counts rise. -/
theorem test_sequence4_notice_lost :
    let t := State.after (sequence4 0 2 0) (.dropRoute 1 1 (.fields 1))
    (t.ctl 1).responses.map Response.result = [.dropRoute 5 1] ∧ (t.session 2).lost = 1 ∧ t.store.lost = 1 ∧
      t.store.freeDescriptors = 2 := by decide +kernel

/-- Sequence 4 step 11: the last copy dropped with two notices lost before; ROUTE_DROPPED carries 2 and FAMILY_EMPTY 0. -/
theorem test_sequence4_two_notices :
    let s := (((sequence4 10 3 0).setFamily 5 (some (family 2 3 1))).setRoute 2 0 (some (live 5 4 0 9))).onSession 2 fun x =>
      { x with lost := 2 }
    let t := State.after s (.dropRoute 2 1 (.fields 1))
    (t.inlet 2 0).queue.map (fun d => d.body.take 6) = [[2, 2, 5, 2, 0, 0], [3, 0, 5, 0, 0, 0]] ∧
      t.family 5 = none ∧ t.store.freeCells = 8 ∧ t.store.freeDescriptors = 1 ∧ (t.session 2).lost = 0 := by decide +kernel

/-- R85: the lane serves the inlets in rotation after the one last served, wrapping from 15 to 0. -/
theorem test_rotation :
    let s := ((running.onInlet 2 3 fun _ => { openInlet 0 8 with queue := [message 0 .controller 2 3] }).onInlet 2 9 fun _ =>
      { openInlet 0 8 with queue := [message 1 .controller 2 9] })
    s.choice 2 = some (0, 3) ∧ (s.onLane 2 0 fun x => { x with lastServed := 3 }).choice 2 = some (0, 9) ∧
      (s.onLane 2 0 fun x => { x with lastServed := 9 }).choice 2 = some (0, 3) := by decide +kernel

/-- R142: a descending write from the base writes one byte and discards the rest. -/
theorem test_stream_runs_off_the_window :
    let t := State.after (streaming 1 .write .descending 100) (.streamData 1 1 [0x11, 0x22])
    (t.ctl 1).responses.map Response.result = [.streamData 1 1 98] ∧ t.bulk = [(100, 0x11)] := by decide +kernel

/-- R109, R107: the generation after 255 is 1. -/
theorem test_generation_wraps :
    ((State.after world (.hello 4 1 (.fields { agentClass := 2, name := List.replicate 16 66 }))).session 4).generation
      = 1 := by decide +kernel

/-- R123: the held BYE is answered before the held HELLO. -/
theorem test_held_answers_in_order :
    ((State.after world (.sweepCompletion 5)).ctl 5).responses.map (fun r => (r.tag, r.kind))
      = [(9, 0x02), (10, 0x01)] := by decide +kernel

/-- R172: LEVEL asserts the line while a response waits; R159: the assembly of a byte outside a frame waits for 0xC3. -/
theorem test_line_follows_the_queue :
    ((State.after world (.status 1 1 [])).ctl 1).atn = .asserted ∧
      ((State.after (within 1 .searching .idle 0) (.byteReceived 1 0x42)).ctl 1).assembly = .searching := by decide +kernel

/-! ### The hypotheses of the statements can be met -/

theorem test_witness_HelloBeginsOrIsHeld :
    world.takesRequests 4 ∧ world.takesRequests 5 ∧ world.takesRequests 6 ∧
      (List.replicate 16 (65 : Byte)).length = 16 ∧ (world.session 4).state = .vacant ∧
      (world.session 4).generation = 255 ∧ (world.session 5).state = .withdrawing ∧ (world.session 5).heldHello ≠ none ∧
      (world.session 6).state = .withdrawing ∧ (world.session 6).heldHello = none :=
  ⟨takes 4, takes 5, takes 6, by decide +kernel⟩

theorem test_witness_HelloAndByeStartAWithdrawal :
    world.serves 1 ∧ world.serves 3 ∧ (List.replicate 16 (65 : Byte)).length = 16 := ⟨serves_1, serves_3, by decide⟩

/-- An engine in delivery, a RESERVED slot in its message: the abort of a withdrawal, whoever asks for it. -/
theorem installing_aborts (q : Port) (bye : Option Byte) (hf : (((installing 0).taken q).cutOff 2 none bye).family 5
      = some { family 2 3 2 with state := .revoked })
    (he : ((((installing 0).taken q).cutOff 2 none bye).engine 2).state = .sent ∧
      ((((installing 0).taken q).cutOff 2 none bye).engine 2).current = some 5)
    (hq : ((((installing 0).taken q).cutOff 2 none bye).inlet 2 5).queue = [delivered]) :
    ∃ u, Aborts 2 (((installing 0).taken q).cutOff 2 none bye) u :=
  ⟨_, .busy (by rw [he.1]; decide) he.2 hq (.route rfl hf (.done _))⟩

theorem test_witness_HelloAndByeStartAWithdrawal_in_delivery :
    (installing 0).serves 2 ∧ (∃ u, Aborts 2 (((installing 0).taken 2).cutOff 2 none (some 9)) u) ∧
      Aborts 1 ((world.taken 1).cutOff 1 none (some 9)) ((world.taken 1).cutOff 1 none (some 9)) :=
  ⟨(installing_serves 0).1, installing_aborts 2 (some 9) (by decide +kernel) (by decide +kernel) (by decide +kernel),
    .idle (by decide +kernel)⟩

theorem test_witness_DormantAndResume :
    world.serves 1 ∧ (world.engine 1).state = .idle ∧ world.serves 3 ∧ (world.session 3).state = .dormant :=
  ⟨serves_1, by decide +kernel, serves_3, by decide +kernel⟩

theorem test_witness_InspectionsReport :
    world.serves 1 ∧ world.route 1 60 = none ∧ world.route 1 0 = some (live 5 4 3 1) ∧
      world.route 1 62 = some (live 5 4 4 7) ∧ world.family 5 = some (family 2 3 2) := ⟨serves_1, by decide +kernel⟩

theorem test_witness_SupervisorInspections : world.supervised 0 := supervised_0

theorem test_witness_CreateRouteMakesAFamily :
    world.serves 2 ∧ (65535 : Nat) ≤ 65535 ∧ (1 : Nat) ≤ 32 ∧ (32 : Nat) ≤ 32 ∧ (3 : Fin 16) ≠ 0 ∧
      (world.inlet 2 3).state = .opened ∧ world.family 0 = none ∧ (∀ g, g < (0 : Fin 256) → world.family g ≠ none) ∧
      world.route 2 0 = none ∧ (∀ j, j < (0 : Fin 63) → world.route 2 j ≠ none) := ⟨serves_2, by decide +kernel⟩

/-- Tables without a FREE record. -/
def crowded : State :=
  ({ world with families := Tab.all 256 (some (family 2 3 1)), windows := Tab.all 32 (some
    { state := .opened, owner := 2, generation := 1, base := 100, limit := 199, share := true, grants := 2 }) } : State)

theorem crowded_serves : crowded.serves 2 := serves_2

def slotless : State :=
  world.onCol 2 fun c =>
    { c with
      routes := Tab.all 63 (some (live 5 4 3 1))
      grants := Tab.all 8 (some { state := .live, window := 3, rights := { read := true, write := true } }) }

theorem slotless_serves : slotless.serves 2 := by
  have h := serves_2
  unfold State.serves State.takesRequests State.takesFrames State.inTransaction State.ctl State.session State.col at *
  exact h

theorem test_witness_CreateRoute_refusals :
    (Instr.createRoute 2 1 (.fields { inlet := 16, label := 0, rights := 0, quota := 1, notify := 0 })).wellMade = false ∧
      (Instr.createRoute 2 1 (.fields { inlet := 3, label := 0, rights := 0, quota := 33, notify := 0 })).wellMade = false ∧
      (world.inlet 2 6).state ≠ .opened ∧ crowded.serves 2 ∧ (crowded.inlet 2 3).state = .opened ∧
      (∀ g, crowded.family g ≠ none) ∧ slotless.serves 2 ∧ (slotless.inlet 2 3).state = .opened ∧
      slotless.family 0 = none ∧ (∀ j, slotless.route 2 j ≠ none) :=
  ⟨by decide, by decide, by decide +kernel, crowded_serves, by decide +kernel, by decide +kernel, slotless_serves,
    by decide +kernel⟩

theorem test_witness_DropRouteEndsACopy :
    world.route 1 60 = none ∧ world.route 1 5 = some { live 5 4 0 6 with state := .reserved } ∧
    world.serves 1 ∧ world.route 1 62 = some (live 5 4 4 7) ∧ (live 5 4 4 7).state ≠ .reserved ∧
      world.family 5 = some (family 2 3 2) ∧ world.route 1 1 = some (live 7 4 0 2) ∧
      world.family 7 = some (family 2 4 1) ∧ world.route 1 4 = some { live 10 4 1 5 with state := .stale } ∧
      ({ family 2 3 1 with state := .revoked } : Family).endCalls 10 1 .dropped = [] ∧
      (family 2 4 1).endCalls 7 1 .dropped =
        [(family 2 4 1).call (.routeDropped 7 1 .dropped), (family 2 4 1).call (.familyEmpty 7)] :=
  ⟨by decide +kernel, by decide +kernel, serves_1, by decide +kernel⟩

/-- One notice heard with room, one heard without, one of an earlier session. -/
theorem test_witness_notice_of_each_fate :
    let heard (s : State) (c : NoticeCall) := ((s.session c.port).state = .attached ∨ (s.session c.port).state = .dormant) ∧
      (s.session c.port).generation = c.generation
    let c := (family 2 3 2).call (.familyEmpty 5)
    heard world c ∧ 1 ≤ world.store.freeDescriptors ∧ 1 ≤ world.store.freeCells ∧
      (world.inlet 2 0).queue.length < (world.inlet 2 0).depth ∧ heard (sequence4 0 2 0) c ∧
      (sequence4 0 2 0).store.freeCells = 0 ∧ ¬ heard world { c with generation := 255 } ∧
      (message 0 (.agent 1 1 2 3) 2 5).ret = true ∧ { message 0 .controller 2 5 with ret := false }.ret = false := by
  decide +kernel

theorem test_witness_DropRouteNotifiesTheCreator :
    world.serves 1 ∧ world.route 1 0 = some (live 5 4 3 1) ∧ (live 5 4 3 1).state ≠ .reserved ∧
      world.family 5 = some (family 2 3 2) ∧ (family 2 3 2).state = .active ∧ (family 2 3 2).notify.dropped = true ∧
      1 < (family 2 3 2).copies ∧ ((world.session 2).state = .attached ∨ (world.session 2).state = .dormant) ∧
      (world.session 2).generation = (family 2 3 2).generation ∧ 1 ≤ world.store.freeDescriptors ∧
      1 ≤ world.store.freeCells ∧ (world.inlet 2 0).queue.length < (world.inlet 2 0).depth :=
  ⟨serves_1, by decide +kernel⟩

theorem test_witness_RevokeFamily_refusals :
    world.serves 2 ∧ world.family 255 = none ∧ world.serves 1 ∧ (family 2 3 2).creator ≠ 1 ∧
      world.family 10 = some { family 2 3 1 with state := .revoked } := ⟨serves_2, by decide +kernel, serves_1, by decide +kernel⟩

theorem test_witness_RevokeFamilyStalesItsCopies :
    world.serves 2 ∧ world.family 5 = some (family 2 3 2) ∧ (family 2 3 2).creator = 2 ∧
      (family 2 3 2).generation = (world.session 2).generation ∧ (family 2 3 2).state = .active :=
  ⟨serves_2, by decide +kernel⟩

theorem test_witness_OpenInletByState :
    (Instr.openInlet 2 1 (.fields { inlet := 3, lane := 4, depth := 8, wake := 0 })).wellMade = false ∧
    world.serves 2 ∧ (0 : Nat) ≤ 64 ∧ (64 : Nat) ≤ 64 ∧ (world.inlet 2 3).state = .opened ∧
      (world.inlet 2 15).state = .closed := ⟨by decide, serves_2, by decide +kernel⟩

theorem test_witness_SetInletInOrder :
    (Instr.setInlet 2 1 (.fields { inlet := 3, depth := 65, wake := 0, lane := 0 })).wellMade = false ∧ world.serves 2 ∧ (1 : Nat) ≤ 1 ∧ (1 : Nat) ≤ 64 ∧ (64 : Nat) ≤ 64 ∧ (world.inlet 2 15).state = .closed ∧
      (world.inlet 2 5).queue.length = 1 := ⟨by decide, serves_2, by decide +kernel⟩

theorem test_witness_SetLaneChangesTheMode :
    world.serves 3 ∧ (Instr.setLane 3 1 (.fields { lane := 3, mode := 2 })).wellMade = false := ⟨serves_3, by decide⟩

theorem test_witness_ReceiveAddsCredit :
    (Instr.receive 2 1 (.fields { inlet := 3, count := 17 })).wellMade = false ∧ world.serves 2 ∧ (1 : Nat) ≤ 16 ∧
      (16 : Nat) ≤ 16 ∧ (world.inlet 2 5).state = .opened := ⟨by decide, serves_2, by decide +kernel⟩

theorem test_witness_CloseInletCloses :
    world.serves 2 ∧ (5 : Fin 16) ≠ 0 ∧ (world.inlet 2 5).state = .opened ∧ (world.inlet 2 15).state = .closed ∧
      (Instr.closeInlet 2 1 (.fields { inlet := 16, mode := 0 })).wellMade = false := ⟨serves_2, by decide +kernel⟩

/-- An OPEN and a DRAINING inlet with a QUEUED message that holds copies IN_TRANSIT. -/
theorem test_witness_CloseInletCloses_discard :
    let draining := transit.onInlet 2 5 fun x => { x with state := .draining }
    transit.serves 2 ∧ (transit.inlet 2 5).state = .opened ∧ (transit.inlet 2 5).queue = [travelling] ∧
      draining.serves 2 ∧ (draining.inlet 2 5).state = .draining ∧
      (∃ u, Destroys 2 .discard (draining.taken 2) [(5, travelling)] u) ∧
      ∃ u, Destroys 2 .discard ((transit.taken 2).familiesRevoked fun x => decide (x.state = .active ∧ x.creator = 2 ∧
        x.generation = (transit.session 2).generation ∧ x.targetInlet = 5)) [(5, travelling)] u := by
  refine ⟨?_, by decide +kernel, by decide +kernel, ?_, by decide +kernel, ⟨_, .next (.route (x := family 2 3 2) rfl
    (by decide +kernel) (.route (x := { family 2 3 1 with state := .revoked }) rfl (by decide +kernel) (.grant (x := window3)
      rfl (by decide +kernel) (.done _)))) (.done _)⟩, ⟨_, .next (.route (x := family 2 3 2) rfl (by decide +kernel)
    (.route (x := { family 2 3 1 with state := .revoked }) rfl (by decide +kernel) (.grant (x := window3) rfl
      (by decide +kernel) (.done _)))) (.done _)⟩⟩ <;>
  · have h := serves_2
    unfold State.serves State.takesRequests State.takesFrames State.inTransaction State.ctl State.session State.col at *
    exact h

theorem test_witness_SendAppendsAMessage :
    world.serves 1 ∧ (List.replicate 512 (0 : Byte)).length ≤ 512 ∧ world.route 1 0 = some (live 5 4 3 1) ∧
      (live 5 4 3 1).state = .live ∧ world.family 5 = some (family 2 3 2) ∧ (live 5 4 3 1).outstanding < (live 5 4 3 1).quota ∧
      (world.inlet 2 3).state = .opened ∧ (world.inlet 2 3).queue.length < (world.inlet 2 3).depth ∧
      1 ≤ world.store.freeDescriptors ∧ 16 ≤ world.store.freeCells ∧
      world.config.reserveCells + 16 ≤ world.store.freeCells ∧
      world.config.reserveDescriptors + 1 ≤ world.store.freeDescriptors := ⟨serves_1, by decide +kernel⟩

theorem test_witness_SendAppendsAMessage_lane0_empty_body :
    world.route 1 1 = some (live 7 4 0 2) ∧ world.family 7 = some (family 2 4 1) ∧ (world.inlet 2 4).lane = 0 ∧
      (world.inlet 2 4).state = .opened ∧ (([] : List Byte).length + 31) / 32 = 0 := by decide +kernel

theorem test_witness_SendRefusedAtTheFirstCheck :
    world.serves 1 ∧ world.route 1 60 = none ∧
      world.route 1 4 = some { live 10 4 1 5 with state := .stale } ∧
      world.route 1 5 = some { live 5 4 0 6 with state := .reserved } ∧
      (world.route 1 62 = some (live 5 4 4 7) ∧ (live 5 4 4 7).quota ≤ (live 5 4 4 7).outstanding) ∧
      (world.route 1 3 = some (live 9 4 1 4) ∧ world.family 9 = some (family 2 6 1) ∧ (world.inlet 2 6).state ≠ .opened) ∧
      (world.route 1 2 = some (live 8 4 1 3) ∧ world.family 8 = some (family 2 5 1) ∧
        (world.inlet 2 5).depth ≤ (world.inlet 2 5).queue.length) ∧
      (sequence4 18 4 1).store.freeDescriptors < (sequence4 18 4 1).config.reserveDescriptors + 1 :=
  ⟨serves_1, by decide +kernel⟩

theorem test_witness_SendRefused_live_slot_names_a_family :
    ∀ r, world.route 1 62 = some r → r.state = .live → world.family r.family ≠ none := by
  intro r h
  rw [show world.route 1 62 = some (live 5 4 4 7) by decide +kernel] at h
  cases h
  decide +kernel

/-- Agent 1 can ask for a reply at inlet 3. -/
def replying : State := world.onInlet 1 3 fun _ => openInlet 0 8

theorem replying_serves : replying.serves 1 ∧
    ({ replying with families := Tab.all 256 (some (family 2 4 1)) } : State).serves 1 := by
  have h := serves_1
  unfold State.serves State.takesRequests State.takesFrames State.inTransaction State.ctl State.session State.col at *
  exact ⟨h, h⟩

def wanted : RouteRights := { copy := true, pass := false }

/-- Check 6 through slot 2: a FREE slot, a source named twice, PASS of the sending slot, a FREE grant slot and a STALE one, and
specs that pass. -/
theorem test_witness_SendRefused_check6 :
    (∀ x ∈ [Spec.route 1 .copy wanted 32, .grant 0 .pass { read := true, write := true }], x.admissible) ∧
    SpecsVerdict world 1 1 [] [.route 60 .copy wanted 1] (some .noRoute) ∧
    SpecsVerdict world 1 1 [] [.route 0 .copy wanted 1, .route 0 .copy wanted 1] (some .badEnclosure) ∧
    SpecsVerdict world 1 1 [] [.route 1 .pass wanted 1] (some .badEnclosure) ∧
    SpecsVerdict world 1 1 [] [.grant 7 .copy { read := true, write := true }] (some .noGrant) ∧
    SpecsVerdict world 1 1 [] [.grant 1 .copy { read := true, write := true }] (some .revoked) ∧
    SpecsVerdict world 1 1 [] [.route 1 .copy wanted 32, .grant 0 .pass { read := true, write := true }] none :=
  ⟨by simp [Spec.admissible], .refused (.routeFree (by decide +kernel)),
    .next (.routePasses (r := live 5 4 3 1) (by decide +kernel) rfl (.inl ⟨rfl, rfl⟩) (by decide) (by decide))
      (.refused (.routeTwice (r := live 5 4 3 1) (by decide +kernel) rfl (.inl ⟨rfl, rfl⟩) (by decide))),
    .refused (.routeSending (r := live 7 4 0 2) (by decide +kernel) rfl (.inr ⟨rfl, rfl⟩) rfl rfl),
    .refused (.grantFree (by decide +kernel)),
    .refused (.grantStale (g := { state := .stale, window := 3, rights := { read := true, write := true } })
      (by decide +kernel) rfl),
    .next (.routePasses (r := live 7 4 0 2) (by decide +kernel) rfl (.inl ⟨rfl, rfl⟩) (by decide) (by decide))
      (.next (.grantPasses (g := { state := .live, window := 3, rights := { read := false, write := true } }) (w := window3)
        (by decide +kernel) rfl (by decide +kernel) rfl (by decide)) (.passed _))⟩

/-- Checks 7 and 8: a reply inlet CLOSED, one OPEN without a FREE family, one that passes, and a store without a descriptor. -/
theorem test_witness_SendRefused_checks7and8 :
    let all := ({ replying with families := Tab.all 256 (some (family 2 4 1)) } : State)
    replying.serves 1 ∧ all.serves 1 ∧ (replying.inlet 1 5).state ≠ .opened ∧ (replying.inlet 1 3).state = .opened ∧
      all.route 1 1 = some (live 7 4 0 2) ∧ all.family 7 = some (family 2 4 1) ∧ (all.inlet 1 3).state = .opened ∧
      (∀ f, all.family f ≠ none) ∧ replying.replyPasses 1 (some 3) ∧ replying.replyPasses 1 none ∧
      replying.storeTakes 0 512 ∧ ¬ (sequence4 18 0 0).storeTakes 0 0 := by
  refine ⟨replying_serves.1, replying_serves.2, by decide +kernel, by decide +kernel, by decide +kernel, by decide +kernel,
    by decide +kernel, by decide +kernel, fun n h => ?_, fun n h => (nomatch h), ?_, ?_⟩
  · cases h
    exact ⟨by decide, by decide +kernel, 0, by decide +kernel⟩
  · unfold State.storeTakes; decide +kernel
  · unfold State.storeTakes; decide +kernel

/-- A SEND through slot 2 that encloses a copy of its own slot and passes a grant, and one that passes slot 1 and asks for a
reply. -/
theorem test_witness_SendEnclosesARoute_specs :
    let drawn := (replying.taken 1).onStore fun z => { z with nextMessage := 3 }
    replying.serves 1 ∧ replying.drawMessage.1 = 2 ∧
    (∃ es u, Encloses 1 drawn [.route 1 .copy wanted 32, .grant 0 .pass { read := true, write := true }] es u ∧
      Mints 1 2 u none none u ∧ u.family 7 = some { family 2 4 1 with copies := 2 }) ∧
    ∃ es u v, Encloses 1 drawn [.route 0 .pass wanted 0] es u ∧ Mints 1 2 u (some 3) (some 0) v ∧
      v.family 7 = some (family 2 4 1) :=
  ⟨replying_serves.1, by decide +kernel,
    ⟨_, _, .routeCopy (r := live 7 4 0 2) (x := family 2 4 1) (by decide +kernel) (by decide +kernel)
      (.grantPass (g := { state := .live, window := 3, rights := { read := false, write := true } }) (by decide +kernel)
        (.done _)), .nothing, by decide +kernel⟩,
    ⟨_, _, _, .routePass (r := live 5 4 3 1) (x := family 2 3 2) (by decide +kernel) (by decide +kernel) (.done _),
      .minted (by decide +kernel) (fun g h => absurd h (by simp)), by decide +kernel⟩⟩

theorem test_witness_SendEnclosesARoute :
    world.serves 1 ∧ (32 : Nat) ≤ 32 ∧ world.route 1 1 = some (live 7 4 0 2) ∧ world.family 7 = some (family 2 4 1) ∧
      (family 2 4 1).kind = .ordinary ∧ (live 7 4 0 2).outstanding < (live 7 4 0 2).quota ∧
      (world.inlet 2 4).state = .opened ∧ (world.inlet 2 4).queue.length < (world.inlet 2 4).depth ∧
      (world.inlet 2 4).lane = 0 ∧ 1 ≤ world.store.freeDescriptors ∧ 16 ≤ world.store.freeCells ∧ (0 : Fin 63) ≠ 1 ∧
      world.route 1 0 = some (live 5 4 3 1) ∧ (live 5 4 3 1).state = .live ∧ world.family 5 = some (family 2 3 2) ∧
      (live 5 4 3 1).rights.pass = true ∧ (live 5 4 3 1).rights.copy = true := ⟨serves_1, by decide +kernel⟩

theorem test_witness_CreateWindowMakesAWindow :
    world.serves 0 ∧ (0 : Fin 262144) ≤ 262143 ∧ (world.settings 0).partitionBase ≤ 0 ∧
      262143 < (world.settings 0).partitionBase + (world.settings 0).partitionLength ∧ world.window 0 = none ∧
      (∀ v, v < (0 : Fin 32) → world.window v ≠ none) ∧ world.grant 0 0 = none ∧
      (∀ j, j < (0 : Fin 8) → world.grant 0 j ≠ none) := ⟨supervised_0.1, by decide +kernel⟩

theorem test_witness_CreateWindow_refusals :
    (Instr.createWindow 0 1 (.fields { base := 2, limit := 1, share := 0 })).wellMade = false ∧ world.serves 1 ∧
      ¬ ((world.settings 1).partitionBase ≤ 0 ∧ 0 < (world.settings 1).partitionBase + (world.settings 1).partitionLength) ∧
      crowded.serves 2 ∧ (∀ v, crowded.window v ≠ none) ∧ slotless.serves 2 ∧ slotless.window 0 = none ∧
      (∀ j, slotless.grant 2 j ≠ none) :=
  ⟨by decide, serves_1, by decide +kernel, crowded_serves, by decide +kernel, slotless_serves, by decide +kernel⟩

theorem test_witness_CloseWindowRevokes :
    world.serves 2 ∧ world.grant 2 7 = some { state := .live, window := 3, rights := { read := true, write := true } } ∧
      world.window 3 = some window3 ∧ window3.owner = 2 ∧ window3.generation = (world.session 2).generation ∧
      window3.state = .opened := ⟨serves_2, by decide +kernel⟩

theorem test_witness_CloseWindow_refusals :
    world.serves 1 ∧ world.grant 1 7 = none ∧
      world.grant 1 2 = some { state := .reserved, window := 3, rights := { read := true, write := true } } ∧
      world.grant 1 0 = some { state := .live, window := 3, rights := { read := false, write := true } } ∧
      window3.owner ≠ 1 ∧ world.serves 2 ∧
      (world.setWindow 3 (some { window3 with state := .revoked })).window 3 = some { window3 with state := .revoked } :=
  ⟨serves_1, by decide +kernel, by decide +kernel, by decide +kernel, by decide, serves_2, by decide +kernel⟩

theorem test_witness_DropGrantFreesTheSlot :
    world.grant 1 7 = none ∧
      world.grant 1 2 = some { state := .reserved, window := 3, rights := { read := true, write := true } } ∧
    world.serves 1 ∧ world.grant 1 0 = some { state := .live, window := 3, rights := { read := false, write := true } } ∧
      world.grant 1 1 = some { state := .stale, window := 3, rights := { read := true, write := true } } ∧
      world.window 3 = some window3 := ⟨by decide +kernel, by decide +kernel, serves_1, by decide +kernel⟩

theorem test_witness_StreamOpenInOrder :
    (Instr.streamOpen 1 1 (.fields { slot := 8, direction := 0, order := 0 })).wellMade = false ∧ world.serves 1 ∧ world.grant 1 7 = none ∧
      world.grant 1 2 = some { state := .reserved, window := 3, rights := { read := true, write := true } } ∧
      world.grant 1 1 = some { state := .stale, window := 3, rights := { read := true, write := true } } ∧
      world.grant 1 0 = some { state := .live, window := 3, rights := { read := false, write := true } } ∧
      world.window 3 = some window3 := ⟨by decide, serves_1, by decide +kernel⟩

theorem streaming_serves (st : StreamState) (order : StreamOrder) (cursor : Int) : (streaming 1 st order cursor).serves 1 := by
  have h := serves_1
  unfold State.serves State.takesRequests State.takesFrames State.inTransaction State.ctl State.session State.col at *
  exact h

theorem test_witness_StreamDataWritesWithinTheWindow :
    (streaming 1 .write .ascending 199).serves 1 ∧ (streaming 1 .write .descending 100).serves 1 ∧
      (streaming 1 .read .ascending 100).serves 1 ∧ (streaming 1 .broken .ascending 100).serves 1 ∧
      world.serves 1 ∧ world.stream 1 = none ∧
      ((streaming 1 .write .ascending 199).stream 1).map Stream.state = some .write ∧
      (streaming 1 .write .ascending 199).memoryCanonical ∧
      ((streaming 1 .read .ascending 100).stream 1).map Stream.state = some .read ∧
      ((streaming 1 .broken .ascending 100).stream 1).map Stream.state = some .broken ∧
      1 ≤ [(0x11 : Byte)].length ∧ (List.replicate 512 (1 : Byte)).length ≤ 512 :=
  ⟨streaming_serves _ _ _, streaming_serves _ _ _, streaming_serves _ _ _, streaming_serves _ _ _, serves_1,
    by decide +kernel, by decide +kernel, rfl, by decide +kernel⟩

theorem test_witness_StreamReadReturnsTheWindow :
    (streaming 1 .read .ascending 199).serves 1 ∧ (streaming 1 .read .descending 99).serves 1 ∧
      (streaming 1 .write .ascending 100).serves 1 ∧ (streaming 1 .broken .ascending 100).serves 1 ∧
      world.serves 1 ∧ world.stream 1 = none ∧
      ((streaming 1 .read .ascending 199).stream 1).map Stream.state = some .read ∧ (1 : Nat) ≤ 512 ∧ (512 : Nat) ≤ 512 :=
  ⟨streaming_serves _ _ _, streaming_serves _ _ _, streaming_serves _ _ _, streaming_serves _ _ _, serves_1,
    by decide +kernel⟩

theorem test_witness_EvictByState :
    world.supervised 0 ∧ (7 : Port) ≠ 0 ∧ (world.session 1).state = .attached ∧ (world.session 3).state = .dormant ∧
      (world.session 7).state = .vacant ∧ (world.session 5).state = .withdrawing := ⟨supervised_0, by decide +kernel⟩

theorem test_witness_EvictByState_in_delivery :
    (installing 0).supervised 0 ∧ ((installing 0).session 2).state = .attached ∧
      ∃ u, Aborts 2 (((installing 0).taken 0).cutOff 2 none none) u :=
  ⟨(installing_serves 0).2, by decide +kernel,
    installing_aborts 0 none (by decide +kernel) (by decide +kernel) (by decide +kernel)⟩

theorem test_witness_SettingsAreReplaced :
    world.supervised 0 ∧ (1 : Nat) ≤ 255 ∧ (7 : Nat) ≤ 7 ∧ (262143 : Nat) ≤ 262143 ∧ 262143 + 1 ≤ (262144 : Nat) ∧
      (512 : Nat) ≤ 512 ∧ (64 : Nat) ≤ 64 ∧
      (Instr.setPort 0 1 (.fields { port := 0, timeout := 1, retryLimit := 0, atnMode := 0, base := 1, length := 262144 })).wellMade
        = false ∧
      (Instr.setReserve 0 1 (.fields { cells := 513, descriptors := 0 })).wellMade = false := ⟨supervised_0, by decide⟩

theorem test_witness_SystemResetClearsThePart : world.supervised 0 := supervised_0

theorem test_witness_RequestLostToOverrun :
    requestKind (.bye 1 7 []) = some .bye ∧ requestHeader (.bye 1 7 []) = some (1, 7) ∧ (full 1).takesFrames 1 ∧
      4 ≤ ((full 1).ctl 1).responses.length :=
  ⟨rfl, rfl, by unfold State.takesFrames; decide +kernel, by decide +kernel⟩

theorem test_witness_FormGateRefuses :
    world.takesRequests 4 ∧ requestKind (.dropRoute 4 7 (.fields 64)) = some .dropRoute ∧
      (Instr.dropRoute 4 7 (.fields 64)).wellMade = false ∧ (Instr.streamRead 4 7 (.fields 513)).wellMade = false ∧
      (Instr.dropRoute 4 7 (.fields 0)).wellMade = false ∧ (Instr.streamData 4 7 []).wellMade = false :=
  ⟨takes 4, by decide⟩

theorem test_witness_SessionAndPrivilegeGates :
    (requestKind (.bye 4 7 []) = some .bye ∧ world.takesRequests 4 ∧ (Instr.bye 4 7 []).wellMade = true ∧
      (world.session 4).state = .vacant) ∧
    (requestHeader (.dropRoute 6 7 (.fields 63)) = some (6, 7) ∧ world.takesRequests 6 ∧
      (Instr.dropRoute 6 7 (.fields 63)).wellMade = true ∧ (world.session 6).state = .withdrawing) ∧
    (requestKind (.evict 1 7 (.fields 7)) = some .evict ∧ world.takesRequests 1 ∧
      (Instr.evict 1 7 (.fields 7)).wellMade = true ∧ (world.session 1).state = .attached ∧
      ¬ ((1 : Port) = 0 ∧ world.supervisor = true)) :=
  ⟨⟨rfl, takes 4, by decide +kernel⟩, ⟨rfl, takes 6, by decide +kernel⟩, ⟨rfl, takes 1, by decide +kernel⟩⟩

theorem test_witness_FramesIgnoredWhileStarting :
    (requestHeader (.bye 1 7 [])).map Prod.fst = some 1 ∧ State.reset.rstnLow = false ∧
      State.reset.controller = .starting ∧ ({ State.reset with rstnLow := true } : State).rstnLow = true :=
  ⟨rfl, rfl, rfl, rfl⟩

theorem test_witness_ChoicePresentsTheHead :
    world.rstnLow = false ∧ (world.engine 2).state = .idle ∧ (world.session 2).state = .attached ∧
      world.choice 2 = some (0, 5) ∧ (world.inlet 2 5).queue = [message 0 (.agent 1 1 2 3) 2 5] ∧
      (message 0 (.agent 1 1 2 3) 2 5).enclosures = [] := by decide +kernel

/-- A settlement of each outcome: RESERVED at slots 1 and 0, DROPPED as REVOKED, and DROPPED for want of a slot. -/
theorem test_witness_ChoicePresentsTheHead_settled :
    let served := (transit.onLane 2 0 fun x => { x with lastServed := 5 }).onInlet 2 5 fun x =>
      { x with credit := if (transit.lane 2 0).mode = .pull then x.credit - 1 else x.credit }
    transit.choice 2 = some (0, 5) ∧ (transit.inlet 2 5).queue = [travelling] ∧
    (∃ u, Settles 2 served travelling.enclosures
      [.route 5 .copy { copy := true, pass := false } 3 (.reserved 0),
       .route 10 .pass { copy := true, pass := true } 3 (.dropped .revoked),
       .grant 3 .copy { read := true, write := false } (.reserved 0)] [] u) ∧
    ∃ u, Settles 2 slotless [.route 5 .copy { copy := true, pass := false } 3 .inTransit]
      [.route 5 .copy { copy := true, pass := false } 3 (.dropped .noSlot)]
      [(family 2 3 2).call (.routeDropped 5 2 .noSlot)] u :=
  ⟨by decide +kernel, by decide +kernel,
    ⟨_, .routeReserved (x := family 2 3 2) (by decide +kernel) rfl (by decide +kernel) (by decide +kernel)
      (.routeRevoked (x := { family 2 3 1 with state := .revoked }) (by decide +kernel) rfl
        (.grantReserved (x := window3) (by decide +kernel) rfl (by decide +kernel) (by decide +kernel) (.done _)))⟩,
    ⟨_, .routeNoSlot (x := family 2 3 2) (by decide +kernel) rfl (by decide +kernel) (.done _)⟩⟩

theorem test_witness_ChoiceIsTheNextOfTheLowestLane : world.choice 2 = some (0, 5) ∧ world.choice 1 = none := by
  decide +kernel

theorem delivering_takes (st : EngineState) (n : Nat) : (delivering st n).takesFrames 2 := by
  have h := (takes 2).1
  unfold State.takesFrames State.inTransaction State.ctl State.col at *
  exact h

theorem test_witness_AckReleasesTheMessage :
    (delivering .presented 0).takesFrames 2 ∧ (delivering .sent 0).takesFrames 2 ∧
      ((delivering .sent 0).session 2).state ≠ .withdrawing ∧ ((delivering .sent 0).engine 2).state ≠ .idle ∧
      ((delivering .presented 0).engine 2).state ≠ .idle ∧ ((delivering .sent 0).engine 2).number = (255 : Byte).toNat ∧
      ((delivering .sent 0).engine 2).current = some 5 ∧
      ((delivering .sent 0).inlet 2 5).queue = [{ message 0 (.agent 1 1 2 3) 2 5 with lifecycle := .inDelivery }] :=
  ⟨delivering_takes _ _, delivering_takes _ _, by decide +kernel⟩

theorem test_witness_DecrementTestMatches :
    world.route 1 2 = some (live 8 4 1 3) ∧ (world.session 1).state ≠ .vacant ∧ (world.session 1).generation = 1 ∧
      (live 8 4 1 3).serial = 3 := by decide +kernel

/-- A RESERVED slot of an ACTIVE family that notifies COPIED, installed. -/
theorem test_witness_AckReleasesTheMessage_installed :
    (installing 0).serves 2 ∧ ((installing 0).engine 2).state = .sent ∧ ((installing 0).engine 2).current = some 5 ∧
      ((installing 0).inlet 2 5).queue = [delivered] ∧
      ∃ u, Installs 2 delivered.sender ((installing 0).noted 2) delivered.enclosures
        [(family 2 3 2).call (.routeCopied 5 2)] u :=
  ⟨(installing_serves 0).1, by decide +kernel, by decide +kernel, by decide +kernel,
    ⟨_, .routeLive (x := family 2 3 2) (r := { live 5 3 0 40 with state := .reserved }) (by decide +kernel) rfl
      (by decide +kernel) rfl (.done _)⟩⟩

theorem test_witness_AckInstallsARoute :
    (installing 0).takesFrames 2 ∧ ((installing 0).session 2).state ≠ .withdrawing ∧ ((installing 0).engine 2).state ≠ .idle ∧
      ((installing 0).engine 2).number = (255 : Byte).toNat ∧ ((installing 0).engine 2).current = some 5 ∧
      ((installing 0).inlet 2 5).queue.map Descriptor.enclosures
        = [[.route 5 .copy { copy := true, pass := false } 3 (.reserved 2)]] ∧
      (installing 0).route 2 2 = some { live 5 3 0 40 with state := .reserved } ∧ (installing 0).family 5 = some (family 2 3 2) :=
  ⟨by unfold State.takesFrames; decide +kernel, by decide +kernel⟩

theorem test_witness_RetryPresentsAgain :
    (delivering .sent 2).takesFrames 2 ∧ ((delivering .sent 2).engine 2).state = .sent ∧
      ((delivering .sent 2).engine 2).retries + 1 ≤ ((delivering .sent 2).engine 2).retryLimit ∧
      ((delivering .sent 2).session 2).state ≠ .withdrawing ∧
      ((delivering .sent 2).engine 2).number = (255 : Byte).toNat ∧ (delivering .sent 2).rstnLow = false :=
  ⟨delivering_takes _ _, by decide +kernel⟩

theorem test_witness_AbandonmentDestroysTheMessage :
    (delivering .sent 3).takesFrames 2 ∧ ((delivering .sent 3).engine 2).state = .sent ∧
      ((delivering .sent 3).engine 2).retryLimit < ((delivering .sent 3).engine 2).retries + 1 ∧
      ((delivering .sent 3).engine 2).current = some 5 ∧
      ((delivering .sent 3).inlet 2 5).queue = [{ message 0 (.agent 1 1 2 3) 2 5 with lifecycle := .inDelivery }] ∧
      (5 : Fin 16) ≠ 0 ∧ ((delivering .sent 3).engine 2).number = (255 : Byte).toNat ∧
      (delivering .sent 3).rstnLow = false := ⟨delivering_takes _ _, by decide +kernel⟩

/-- The message abandoned holds a RESERVED slot, and none IN_TRANSIT. -/
theorem test_witness_AbandonmentDestroysTheMessage_enclosures :
    ((installing 3).engine 2).state = .sent ∧ ((installing 3).engine 2).retryLimit < ((installing 3).engine 2).retries + 1 ∧
      ((installing 3).inlet 2 5).queue = [delivered] ∧
      ∃ freed u gone v, CopiesEnd 2 .abandoned Enclosure.isReserved (installing 3) delivered.enclosures freed u ∧
        CopiesEnd 2 .abandoned Enclosure.isInTransit (u.messageGone 2 5 delivered []) delivered.enclosures gone v :=
  ⟨by decide +kernel, by decide +kernel, by decide +kernel,
    ⟨_, _, _, _, .route (x := family 2 3 2) rfl (by decide +kernel) (.done _), .other rfl (.done _)⟩⟩

theorem test_witness_StrayAcknowledgements :
    world.takesFrames 6 ∧ (world.session 6).state = .withdrawing ∧ world.takesFrames 1 ∧
      (world.session 1).state ≠ .withdrawing ∧ (world.engine 1).state = .idle ∧ (delivering .sent 0).takesFrames 2 ∧
      ((delivering .sent 0).engine 2).number ≠ (254 : Byte).toNat :=
  ⟨(takes 6).1, by decide +kernel, (takes 1).1, by decide +kernel, by decide +kernel, delivering_takes _ _,
    by decide +kernel⟩

theorem test_witness_FrameErrorIsAnswered :
    State.reset.rstnLow = false ∧ State.reset.controller = .starting ∧ world.takesFrames 4 ∧ (full 1).takesFrames 1 ∧
      ((full 1).ctl 1).responses.length = 4 :=
  ⟨rfl, rfl, (takes 4).1, by unfold State.takesFrames; decide +kernel, by decide +kernel⟩

theorem test_witness_ArbiterFixesTheFrame :
    world.rstnLow = false ∧ world.controller = .running ∧ (world.ctl 1).sel = false ∧ (world.ctl 1).responses = [] ∧
      (world.engine 1).state ≠ .presented ∧ ((full 1).ctl 1).responses ≠ [] ∧
      ((delivering .presented 0).engine 2).state = .presented ∧ ((delivering .presented 0).engine 2).frame ≠ none ∧
      ((delivering .presented 0).ctl 2).responses = [] := by decide +kernel

theorem test_witness_TransactionEndCutsShort :
    (within 1 .searching .idle 3).inTransaction 1 = true ∧ (within 1 .spent .idle 3).inTransaction 1 = true ∧
      (within 1 (.inFrame [0xC3, 1, 9, 0, 1]) .idle 3).inTransaction 1 = true ∧ (within 1 .spent .idle 3).rstnLow = false ∧
      (within 1 .spent .idle 3).controller = .running := by decide +kernel

theorem test_witness_ShiftedOutWhole :
    (within 1 .searching (.response 255) 6).rstnLow = false ∧
      ((within 1 .searching (.response 255) 6).ctl 1).outbound
        = some { carried := .response 255, bytes := [0xC3, 0x81, 0, 0, 0, 1, 2], progress := 6 } ∧
      6 < [(0xC3 : Byte), 0x81, 0, 0, 0, 1, 2].length := by decide +kernel

theorem test_witness_PulseEndsReleased :
    let s := world.onCtl 1 fun c => { c with atn := .pulsing }
    s.rstnLow = false ∧ (s.ctl 1).atn = .pulsing := by decide +kernel

theorem test_witness_BytesAreAssembled :
    (within 1 .searching .idle 5).rstnLow = false ∧
      ((within 1 .searching .idle 5).ctl 1).outbound
        = some { carried := .idle, bytes := [0xC3, 0x81, 0, 0, 0, 1, 2], progress := 5 } ∧
      5 + 1 < [(0xC3 : Byte), 0x81, 0, 0, 0, 1, 2].length ∧ 6 + 1 = [(0xC3 : Byte), 0x81, 0, 0, 0, 1, 2].length ∧
      ((within 1 .searching (.response 0) 6).ctl 1).outbound.map Outbound.progress = some 6 ∧
      ((within 1 .searching .idle 7).ctl 1).outbound.map Outbound.progress = some 7 ∧ (world.ctl 1).outbound = none ∧ ((within 1 .spent .idle 5).ctl 1).assembly = .spent ∧
      ((within 1 (.inFrame [0xC3, 1, 9]) .idle 5).ctl 1).assembly = .inFrame [0xC3, 1, 9] ∧
      ((within 1 (.inFrame [0xC3, 1, 9, 2]) .idle 5).ctl 1).assembly = .inFrame [0xC3, 1, 9, 2] := by decide +kernel

/-- The outbound frame ends with the byte. -/
theorem test_witness_BytesAreAssembled_ends :
    ∃ out, exec (.frameShiftedOut 1) (within 1 .searching (.response 0) 6) = .next out := ⟨_, rfl⟩

theorem test_witness_TableSweepsFreeTheSlots :
    world.rstnLow = false ∧ (world.session 6).state = .withdrawing ∧
      (world.session 6).sweep = some { routeTable := true, grantTable := true, inletTable := true } := by decide +kernel

theorem test_witness_InletTableSweepEmpties :
    world.rstnLow = false ∧ (world.session 6).state = .withdrawing ∧
      (world.session 6).sweep.map Sweep.inletTable = some true := by decide +kernel

/-- Agent 2 withdraws with a message in inlet 5 that holds copies IN_TRANSIT. -/
def leaving : State :=
  transit.onSession 2 fun x =>
    { x with state := .withdrawing, sweep := some { routeTable := true, grantTable := true, inletTable := true } }

theorem test_witness_InletTableSweepEmpties_message :
    ((List.finRange 16).flatMap fun i => (leaving.inlet 2 i).queue.map fun d => (i, d)) = [(5, travelling)] ∧
      ∃ u, Destroys 2 .withdrawal leaving [(5, travelling)] u :=
  ⟨by decide +kernel, _, .next (.route (x := family 2 3 2) rfl (by decide +kernel)
    (.route (x := { family 2 3 1 with state := .revoked }) rfl (by decide +kernel) (.grant (x := window3) rfl
      (by decide +kernel) (.done _)))) (.done _)⟩

theorem test_witness_SweepCompletionAnswersWhatIsHeld :
    world.rstnLow = false ∧ (world.session 5).state = .withdrawing ∧
      (world.session 5).sweep = some { routeTable := false, grantTable := false, inletTable := false } ∧
      (world.session 5).heldHello ≠ none := by decide +kernel

theorem test_witness_ResetsPutThePartInItsResetState : ({ world with rstnLow := true } : State).rstnLow = true := rfl

theorem test_witness_StartupCompletes :
    State.reset.rstnLow = false ∧ State.reset.controller = .starting ∧ (State.reset.ctl 0).responses.length < 4 ∧
      State.reset.pendingReset = none ∧ ({ State.reset with pendingReset := some 9 } : State).pendingReset = some 9 := by
  decide +kernel

/-- `world` with a command waiting. -/
def busy : State := { world with pending := [.status 1 7 []] }

theorem test_witness_QueuesMemoryAndEnginesKept :
    (∃ t, step busy = .next t) ∧ busy.queuesBounded ∧ busy.memoryCanonical ∧ (∀ p, EngineLaw (busy.engine p)) ∧
      EngineLaw ((delivering .presented 0).engine 2) :=
  ⟨⟨_, rfl⟩, by unfold State.queuesBounded; decide +kernel, rfl,
    fun p => by fin_cases p <;> exact ⟨rfl, rfl, rfl, rfl⟩, by
      show ((delivering .presented 0).engine 2).current ≠ none ∧ ((delivering .presented 0).engine 2).frame ≠ none ∧
        ((delivering .presented 0).engine 2).timer = none
      decide +kernel⟩

theorem test_witness_LinesStayLawful : (∃ t, step busy = .next t) ∧ busy.linesLawful := by
  refine ⟨⟨_, rfl⟩, fun p => ?_⟩
  fin_cases p <;> exact (rfl : Atn.released = Atn.released)

/-- In PULSE mode, a request answered where nothing waited begins a pulse (R172). -/
theorem test_witness_LinesStayLawful_pulse :
    let pulse : PortSettings := { timeout := 1, retryLimit := 0, atnMode := .pulse, partitionBase := 0, partitionLength := 0 }
    let s : State := { world with config := { world.config with ports := Tab.all 8 pulse } }
    ∃ t, exec (.status 1 7 []) s = .next t ∧ t.rstnLow = false ∧ t.controller = .running ∧
      (t.session 1).state = .attached ∧ (t.settings 1).atnMode = .pulse ∧ ¬ s.waits 1 ∧ t.waits 1 ∧
      (t.ctl 1).atn = .pulsing :=
  ⟨_, rfl, by unfold State.waits; decide +kernel⟩

theorem test_witness_InletLawsKept : (∃ t, step busy = .next t) ∧ InletLaw busy :=
  ⟨⟨_, rfl⟩, ⟨by decide +kernel, by decide +kernel, by decide +kernel⟩⟩

theorem test_witness_RevokedStaysRevoked :
    (∃ t, exec (.status 1 7 []) world = .next t) ∧ world.family 10 = some { family 2 3 1 with state := .revoked } :=
  ⟨⟨_, rfl⟩, by decide +kernel⟩

theorem test_witness_ConfigurationIsTheSupervisors :
    (∃ t, exec (.setReserve 1 7 (.fields { cells := 0, descriptors := 0 })) world = .next t) ∧
      commandPort (.setReserve 1 7 (.fields { cells := 0, descriptors := 0 })) ≠ some 0 ∧
      Instr.setReserve 1 7 (.fields { cells := 0, descriptors := 0 }) ≠ .powerOn ∧
      Instr.setReserve 1 7 (.fields { cells := 0, descriptors := 0 }) ≠ .resetPinRelease :=
  ⟨⟨_, rfl⟩, by decide⟩

theorem test_witness_BulkMemoryOnlyThroughAStream :
    ∃ t, exec (.streamData 1 7 [0x55]) (streaming 1 .write .ascending 199) = .next t ∧
      Memory.read t.bulk 199 ≠ Memory.read (streaming 1 .write .ascending 199).bulk 199 :=
  ⟨_, rfl, by decide +kernel⟩

theorem test_witness_FramesSpellTheirRequests :
    (Instr.setLane 7 255 (.fields { lane := 255, mode := 0 })).wellFormed = true ∧
      requestHeader (.setLane 7 255 (.fields { lane := 255, mode := 0 })) = some (7, 255) ∧
      requestBody (.setLane 7 255 (.fields { lane := 255, mode := 0 })) = some [0x0D, 255, 0] := by decide

theorem test_witness_DrawnNumbersAreUnused :
    world.descriptors.length < 65535 ∧ world.serialsInUse.length < 65535 := by decide +kernel

end Sys2Proof.Machine.Tests
end

/-! PROOFS. The inlet and lane requests (02): OPEN_INLET, SET_INLET, SET_LANE and RECEIVE. First the form gate (R150), where
`wellMade` is tied to the reading of a request's fields; then a request that changes one inlet or one lane; then, for each
of the four, its block as one chain of tests and the statement it settles. -/

namespace Sys2Proof.Machine

/-! ### The form gate -/

theorem isSome_bind_of_forall {α β : Type} {x : Option α} {g : α → Option β} {b : Bool}
    (h : ∀ a, (g a).isSome = b) : (x.bind g).isSome = (x.isSome && b) := by
  cases x with
  | none => rfl
  | some a => simp [h a]

theorem isSome_bind_some {α β : Type} (x : Option α) (g : α → β) : (x.bind fun a => some (g a)).isSome = x.isSome := by
  simp [isSome_bind_of_forall (b := true)]

/-- A field with the range 0 to `n` and one read as an index below `n + 1` are in range together. -/
theorem fin?_isSome (n x : Nat) : (fin? (n + 1) x).isSome = within 0 n x := by
  by_cases h : x < n + 1
  · simp [fin?, within, h, Nat.le_of_lt_succ h]
  · simp [fin?, within, h, Nat.lt_of_succ_le (Nat.le_of_not_lt h)]

theorem range?_isSome (lo hi x : Nat) : (range? lo hi x).isSome = within lo hi x := by
  rw [range?, within, ← Bool.decide_and]
  split <;> simp [*]

theorem flag?_isSome (x : Nat) : (flag? x).isSome = within 0 1 x := by
  match x with
  | 0 | 1 => rfl
  | n + 2 => simp [flag?, within]

theorem laneMode?_isSome (x : Nat) : (laneMode? x).isSome = within 0 1 x := by
  match x with
  | 0 | 1 => rfl
  | n + 2 => simp [laneMode?, within]

theorem range?_of_le {lo hi x : Nat} (h1 : lo ≤ x) (h2 : x ≤ hi) : range? lo hi x = some x := by
  simp [range?, h1, h2]

theorem flag?_toNat (b : Bool) : flag? b.toNat = some b := by cases b <;> rfl

/-- Where a form reads exactly the good fields, a body that is not good reads as nothing. -/
theorem formOf_eq_none {α β : Type} {form : α → Option β} {good : α → Bool} (h : ∀ f, (form f).isSome = good f)
    {b : Body α} (hb : b.good good = false) : formOf form b = none := by
  cases b with
  | fields f => exact Option.isNone_iff_eq_none.mp (Option.isSome_eq_false_iff.mp ((h f).trans hb))
  | misshapen bs => rfl

/-- A request that its form gate reads as nothing is answered BAD_REQUEST, its stream closed, and changes nothing else. -/
theorem turnsAway_of_malformed {i : Instr} {k : RequestKind} {p : Port} {tag : Byte} {s : State}
    (hk : k.keepsStream = false) (h : s.takesRequests p) (hi : exec i s = .next (takeRequest k p tag none s)) :
    s.turnsAway p tag k.code .badRequest i := by
  refine ⟨_, hi, ?_⟩
  rw [takeRequest_malformed k tag h, State.closeStream_closes hk, ← State.answer_closed_eq]
  refine followAtn_line _ _ _ ?_
  simp only [State.answer, State.setStream, State.onCtl, State.onCol_onCol]
  exact State.drive_onCol _ _ _

/-! ### A request that changes one inlet or one lane -/

@[simp] theorem State.taken_inlet (s : State) (p q : Port) (i : Fin 16) : (s.taken p).inlet q i = s.inlet q i := by
  simp [State.taken, State.noted]

@[simp] theorem State.taken_lane (s : State) (p q : Port) (l : Fin 4) : (s.taken p).lane q l = s.lane q l := by
  simp [State.taken, State.noted]

section
variable {k : RequestKind} {s : State} {p : Port} {tag : Byte} {act : State → State × Answer} {st : Status} {r : Result}

theorem takeRequest_onInlet {i : Fin 16} {f : Inlet → Inlet} (hk : k.keepsStream = false) (h : s.takesRequests p)
    (hg : s.gate p k = none)
    (ha : act (s.taken p) = ((s.taken p).onInlet p i f, .now st r)) :
    EqualButLine p (((s.answer p tag k.code st r).setStream p none).onInlet p i f) (takeRequest k p tag (some act) s) :=
  takeRequest_changed _ hk h hg ha (fun _ => rfl) (fun _ _ => rfl) rfl

theorem takeRequest_onLane {l : Fin 4} {f : Lane → Lane} (hk : k.keepsStream = false) (h : s.takesRequests p)
    (hg : s.gate p k = none)
    (ha : act (s.taken p) = ((s.taken p).onLane p l f, .now st r)) :
    EqualButLine p (((s.answer p tag k.code st r).setStream p none).onLane p l f) (takeRequest k p tag (some act) s) :=
  takeRequest_changed _ hk h hg ha (fun _ => rfl) (fun _ _ => rfl) rfl

end

/-! ### OPEN_INLET -/

theorem formOpenInlet_isSome (f : OpenInletFields) : (formOpenInlet f).isSome =
    (within 0 15 f.inlet && within 0 3 f.lane && within 0 64 f.depth && within 0 1 f.wake) := by
  rw [← fin?_isSome 15, ← fin?_isSome 3, ← range?_isSome, ← flag?_isSome, Bool.and_assoc, Bool.and_assoc]
  exact isSome_bind_of_forall fun _ => isSome_bind_of_forall fun _ => isSome_bind_of_forall fun _ => isSome_bind_some ..

theorem formOpenInlet_fields (i : Fin 16) (l : Fin 4) {depth : Nat} (wake : Bool) (h : depth ≤ 64) :
    formOpenInlet { inlet := i.val, lane := l.val, depth := depth, wake := wake.toNat } =
      some { inlet := i, lane := l, depth := depth, wake := wake } := by
  simp [formOpenInlet, fin?_val, flag?_toNat, range?_of_le (Nat.zero_le depth) h, Config.depthMax]

theorem exec_openInlet (p : Port) (tag : Byte) (b : Body OpenInletFields) (s : State) : exec (.openInlet p tag b) s =
    .next (takeRequest .openInlet p tag ((formOf formOpenInlet b).map (openInletBlock p)) s) := rfl

/-- OPEN_INLET reads the inlet's state alone, which counting the request leaves. -/
theorem openInletBlock_taken (s : State) (p : Port) (o : OpenInletOp) :
    openInletBlock p o (s.taken p) =
      if o.inlet = 0 then (s.taken p, .bare .fixed)
      else if (s.inlet p o.inlet).state = .opened then (s.taken p, .bare .badState)
      else if (s.inlet p o.inlet).state = .draining then (s.taken p, .bare .busy)
      else ((s.taken p).onInlet p o.inlet fun _ =>
        { state := .opened, lane := o.lane, depth := if o.depth = 0 then 8 else o.depth, wake := o.wake, queue := [],
          credit := 0, refusedFull := 0 }, .bare .ok) := by
  rw [openInletBlock, State.taken_inlet]
  cases (s.inlet p o.inlet).state with
  | closed => rfl
  | opened => rfl
  | draining => rfl

/-- Settles O11: the three states of an inlet other than 0, only the CLOSED one changed. -/
theorem openInletByState : Obligations.OpenInletByState := by
  unfold Obligations.OpenInletByState
  intro s p tag i l depth wake h hdepth
  have hg : s.gate p .openInlet = none := State.gate_serves _ h rfl
  have block := openInletBlock_taken s p { inlet := i, lane := l, depth := depth, wake := wake }
  refine ⟨fun b hb => turnsAway_of_malformed (k := .openInlet) rfl h.1 ?_, _, exec_openInlet .., ?_⟩
  · rw [exec_openInlet, formOf_eq_none formOpenInlet_isSome hb]; rfl
  rw [formOf, formOpenInlet_fields i l wake hdepth]
  generalize (if depth = 0 then 8 else depth) = given at block ⊢
  split_ifs at block ⊢ with hfixed hopened hdraining
  · exact takeRequest_answered (k := .openInlet) rfl h.1 hg block
  · exact takeRequest_answered (k := .openInlet) rfl h.1 hg block
  · exact takeRequest_answered (k := .openInlet) rfl h.1 hg block
  · exact takeRequest_onInlet (k := .openInlet) rfl h.1 hg block

/-! ### SET_INLET -/

theorem formSetInlet_isSome (f : SetInletFields) : (formSetInlet f).isSome =
    (within 0 15 f.inlet && within 1 64 f.depth && within 0 1 f.wake && within 0 3 f.lane) := by
  rw [← fin?_isSome 15, ← range?_isSome, ← flag?_isSome, ← fin?_isSome 3, Bool.and_assoc, Bool.and_assoc]
  exact isSome_bind_of_forall fun _ => isSome_bind_of_forall fun _ => isSome_bind_of_forall fun _ => isSome_bind_some ..

theorem formSetInlet_fields (i : Fin 16) (l : Fin 4) {depth : Nat} (wake : Bool) (h1 : 1 ≤ depth) (h2 : depth ≤ 64) :
    formSetInlet { inlet := i.val, depth := depth, wake := wake.toNat, lane := l.val } =
      some { inlet := i, depth := depth, wake := wake, lane := l } := by
  simp [formSetInlet, fin?_val, flag?_toNat, range?_of_le h1 h2, Config.depthMax]

theorem exec_setInlet (p : Port) (tag : Byte) (b : Body SetInletFields) (s : State) : exec (.setInlet p tag b) s =
    .next (takeRequest .setInlet p tag ((formOf formSetInlet b).map (setInletBlock p)) s) := rfl

/-- SET_INLET reads the inlet alone, so its four tests come out as they would have before the request was counted. -/
theorem setInletBlock_taken (s : State) (p : Port) (o : SetInletOp) :
    setInletBlock p o (s.taken p) =
      if o.inlet = 0 ∧ o.lane ≠ 0 then (s.taken p, .bare .fixed)
      else if (s.inlet p o.inlet).state = .closed then (s.taken p, .bare .inletClosed)
      else if o.depth < (s.inlet p o.inlet).queue.length then (s.taken p, .bare .badState)
      else if o.depth = (s.inlet p o.inlet).depth ∧ o.wake = (s.inlet p o.inlet).wake ∧
          o.lane = (s.inlet p o.inlet).lane then
        (s.taken p, .bare .already)
      else ((s.taken p).onInlet p o.inlet fun x =>
        { x with depth := o.depth, wake := o.wake, lane := o.lane }, .bare .ok) := by
  simp only [setInletBlock, State.taken_inlet]

/-- Settles O12: the four tests in their order, each answered without a change, and the three values set together. -/
theorem setInletInOrder : Obligations.SetInletInOrder := by
  unfold Obligations.SetInletInOrder
  intro s p tag i l depth wake h hdepth hdepth'
  have hg : s.gate p .setInlet = none := State.gate_serves _ h rfl
  have block := setInletBlock_taken s p { inlet := i, depth := depth, wake := wake, lane := l }
  refine ⟨fun b hb => turnsAway_of_malformed (k := .setInlet) rfl h.1 ?_, _, exec_setInlet .., ?_⟩
  · rw [exec_setInlet, formOf_eq_none formSetInlet_isSome hb]; rfl
  rw [formOf, formSetInlet_fields i l wake hdepth hdepth']
  split_ifs at block ⊢ with hfixed hclosed hlonger hequal
  · exact takeRequest_answered (k := .setInlet) rfl h.1 hg block
  · exact takeRequest_answered (k := .setInlet) rfl h.1 hg block
  · exact takeRequest_answered (k := .setInlet) rfl h.1 hg block
  · exact takeRequest_answered (k := .setInlet) rfl h.1 hg block
  · exact takeRequest_onInlet (k := .setInlet) rfl h.1 hg block

/-! ### SET_LANE -/

theorem formSetLane_isSome (f : SetLaneFields) :
    (formSetLane f).isSome = (within 0 3 f.lane && within 0 1 f.mode) := by
  rw [← fin?_isSome, ← laneMode?_isSome]
  exact isSome_bind_of_forall fun _ => isSome_bind_some ..

theorem formSetLane_fields (l : Fin 4) {n : Nat} {mode : LaneMode} (h : laneMode? n = some mode) :
    formSetLane { lane := l.val, mode := n } = some { lane := l, mode := mode } := by
  simp [formSetLane, fin?_val, h]

theorem exec_setLane (p : Port) (tag : Byte) (b : Body SetLaneFields) (s : State) : exec (.setLane p tag b) s =
    .next (takeRequest .setLane p tag ((formOf formSetLane b).map (setLaneBlock p)) s) := rfl

/-- SET_LANE reads the lane's mode alone, which counting the request leaves. -/
theorem setLaneBlock_taken (s : State) (p : Port) (o : SetLaneOp) :
    setLaneBlock p o (s.taken p) =
      if o.lane = 0 then (s.taken p, .bare .fixed)
      else if (s.lane p o.lane).mode = o.mode then (s.taken p, .bare .already)
      else ((s.taken p).onLane p o.lane fun x => { x with mode := o.mode }, .bare .ok) := by
  simp only [setLaneBlock, State.taken_lane]

/-- Settles O13: the two tests in their order, each answered without a change, and the mode set. -/
theorem setLaneChangesTheMode : Obligations.SetLaneChangesTheMode := by
  unfold Obligations.SetLaneChangesTheMode
  intro s p tag l mode h
  have hg : s.gate p .setLane = none := State.gate_serves _ h rfl
  have block := setLaneBlock_taken s p { lane := l, mode := mode }
  refine ⟨fun b hb => turnsAway_of_malformed (k := .setLane) rfl h.1 ?_, _, exec_setLane .., ?_⟩
  · rw [exec_setLane, formOf_eq_none formSetLane_isSome hb]; rfl
  rw [formOf, formSetLane_fields l (mode := mode) (by cases mode <;> rfl)]
  split_ifs at block ⊢ with hfixed halready
  · exact takeRequest_answered (k := .setLane) rfl h.1 hg block
  · exact takeRequest_answered (k := .setLane) rfl h.1 hg block
  · exact takeRequest_onLane (k := .setLane) rfl h.1 hg block

/-! ### RECEIVE -/

theorem formReceive_isSome (f : ReceiveFields) :
    (formReceive f).isSome = (within 0 15 f.inlet && within 1 16 f.count) := by
  rw [← fin?_isSome, ← range?_isSome]
  exact isSome_bind_of_forall fun _ => isSome_bind_some ..

theorem formReceive_fields (i : Fin 16) {count : Nat} (h1 : 1 ≤ count) (h2 : count ≤ 16) :
    formReceive { inlet := i.val, count := count } = some { inlet := i, count := count } := by
  simp [formReceive, fin?_val, range?_of_le h1 h2, Config.creditMax]

theorem exec_receive (p : Port) (tag : Byte) (b : Body ReceiveFields) (s : State) : exec (.receive p tag b) s =
    .next (takeRequest .receive p tag ((formOf formReceive b).map (receiveBlock p)) s) := rfl

theorem Inlet.hasQueued_iff (x : Inlet) : x.hasQueued = true ↔ ∃ d ∈ x.queue, d.lifecycle = .queued := by
  simp [Inlet.hasQueued]

/-- The pull credit after a RECEIVE: the count added and the sum cut at 16 (R35). -/
theorem min_creditMax (n : Nat) : min Config.creditMax n = if n ≤ 16 then n else 16 := by
  rw [Nat.min_comm, Nat.min_def, Config.creditMax]

/-- RECEIVE reads the inlet and its lane's mode alone, which counting the request leaves. -/
theorem receiveBlock_taken (s : State) (p : Port) (o : ReceiveOp) {credit : Nat}
    (hcredit : credit = if (s.inlet p o.inlet).credit + o.count ≤ 16 then (s.inlet p o.inlet).credit + o.count else 16) :
    receiveBlock p o (s.taken p) =
      if (s.inlet p o.inlet).state = .closed then (s.taken p, .bare .inletClosed)
      else if (s.lane p (s.inlet p o.inlet).lane).mode = .push then (s.taken p, .bare .badState)
      else ((s.taken p).onInlet p o.inlet fun x => { x with credit := credit },
        .now (if ∃ d ∈ (s.inlet p o.inlet).queue, d.lifecycle = .queued then .queued else .empty) (.receive credit)) := by
  simp only [receiveBlock, State.taken_inlet, State.taken_lane,
    min_creditMax, Inlet.hasQueued_iff, hcredit]

/-- Settles O14: the two tests in their order, each answered without a change, and the credit raised. -/
theorem receiveAddsCredit : Obligations.ReceiveAddsCredit := by
  unfold Obligations.ReceiveAddsCredit
  intro s p tag i count h hcount hcount' credit
  have hg : s.gate p .receive = none := State.gate_serves _ h rfl
  have block := receiveBlock_taken s p { inlet := i, count := count } (credit := credit) rfl
  refine ⟨fun b hb => turnsAway_of_malformed (k := .receive) rfl h.1 ?_, _, exec_receive .., ?_⟩
  · rw [exec_receive, formOf_eq_none formReceive_isSome hb]; rfl
  rw [formOf, formReceive_fields i hcount hcount']
  by_cases hclosed : (s.inlet p i).state = .closed
  · rw [if_pos hclosed] at block ⊢
    exact takeRequest_answered (k := .receive) rfl h.1 hg block
  rw [if_neg hclosed] at block ⊢
  by_cases hpush : (s.lane p (s.inlet p i).lane).mode = .push
  · rw [if_pos hpush] at block ⊢
    exact takeRequest_answered (k := .receive) rfl h.1 hg block
  · rw [if_neg hpush] at block ⊢
    exact takeRequest_onInlet (k := .receive) rfl h.1 hg block

end Sys2Proof.Machine

/-! PROOFS. The route requests CREATE_ROUTE and REVOKE_FAMILY (03). First the rules both use: a table read record by record, and
what counting a request leaves; then, for each of the two, its form, its block by its tests, and the statement it settles. -/

namespace Sys2Proof.Machine

/-! ### A table read record by record -/

theorem Tab.cells_eq_map_get {n : Nat} {α : Type} (t : Tab n α) : t.cells = (List.finRange n).map t.get := by
  apply List.ext_getElem
  · rw [t.len, List.length_map, List.length_finRange]
  · intro k _ _
    simp [Tab.get]

theorem Tab.count_eq {n : Nat} {α : Type} (p : α → Bool) (t : Tab n α) :
    t.count p = (List.finRange n).countP fun i => p (t.get i) := by
  rw [Tab.count, Tab.cells_eq_map_get, List.countP_map]
  rfl

/-! ### What counting a request leaves -/

/-- Whatever a change of one column keeps, it keeps in every column. -/
theorem State.onCol_keeps {α : Type} (s : State) (p : Port) {g : Column → Column} (field : Column → α)
    (h : ∀ c, field (g c) = field c) (q : Port) : field ((s.onCol p g).col q) = field (s.col q) := by
  rw [State.onCol_col]
  split
  · exact h _
  · rfl

/-- Counting a request keeps every field of a column that is neither the port's controller nor its stream. -/
theorem State.taken_keeps {α : Type} (s : State) (p : Port) (field : Column → α)
    (hport : ∀ c x, field { c with port := x } = field c) (hstream : ∀ c x, field { c with stream := x } = field c)
    (q : Port) : field ((s.taken p).col q) = field (s.col q) :=
  (State.onCol_keeps _ p field (fun _ => hstream ..) q).trans (State.onCol_keeps s p field (fun _ => hport ..) q)

theorem State.answer_closed_routes (s : State) (p : Port) (tag kind : Byte) (st : Status) (r : Result) (q : Port) :
    (((s.answer p tag kind st r).setStream p none).col q).routes = (s.col q).routes := by
  simp only [State.answer, State.setStream, State.onCtl, State.onCol_onCol]
  refine State.onCol_keeps s p Column.routes ?_ q
  exact fun _ => rfl

@[simp] theorem State.taken_session (s : State) (p q : Port) : (s.taken p).session q = s.session q := by
  simp [State.taken]

@[simp] theorem State.taken_route (s : State) (p q : Port) (i : Fin 63) : (s.taken p).route q i = s.route q i := by
  simp [State.taken, State.noted]

/-- The serials in use are read from the route and inlet tables alone (R7). -/
theorem State.serialsInUse_congr {s t : State} (hroutes : ∀ q, (t.col q).routes = (s.col q).routes)
    (hinlets : ∀ q, (t.col q).inlets = (s.col q).inlets) : t.serialsInUse = s.serialsInUse := by
  have hcells : ∀ u : State, u.columns.cells = (List.finRange 8).map u.col := fun u => Tab.cells_eq_map_get u.columns
  simp only [State.serialsInUse, State.descriptors, hcells, List.flatMap_map, Column.serials, Column.descriptors,
    hroutes, hinlets]

theorem State.taken_drawSerial (s : State) (p : Port) : (s.taken p).drawSerial.1 = s.drawSerial.1 := by
  have huse : (s.taken p).serialsInUse = s.serialsInUse :=
    State.serialsInUse_congr (State.taken_keeps s p Column.routes (fun _ _ => rfl) fun _ _ => rfl)
      (State.taken_keeps s p Column.inlets (fun _ _ => rfl) fun _ _ => rfl)
  simp only [State.drawSerial, huse]
  rfl

/-- A request whose block refuses it is answered so, its stream closed, and changes nothing else. -/
theorem turnsAway_of_block {i : Instr} {k : RequestKind} {p : Port} {tag : Byte} {s : State} {st : Status}
    {act : State → State × Answer} (hk : k.keepsStream = false) (h : s.takesRequests p) (hg : s.gate p k = none)
    (hi : exec i s = .next (takeRequest k p tag (some act) s)) (ha : act (s.taken p) = (s.taken p, .bare st)) :
    s.turnsAway p tag k.code st i :=
  ⟨_, hi, takeRequest_answered hk h hg ha⟩

/-! ### CREATE_ROUTE -/

theorem routeRights?_isSome (x : Nat) : (routeRights? x).isSome = within 0 3 x := by
  by_cases h : x < 4
  · simp [routeRights?, within, h, Nat.le_of_lt_succ h]
  · simp [routeRights?, within, h, Nat.lt_of_succ_le (Nat.le_of_not_lt h)]

theorem notifySet?_isSome (x : Nat) : (notifySet? x).isSome = within 0 7 x := by
  by_cases h : x < 8
  · simp [notifySet?, within, h, Nat.le_of_lt_succ h]
  · simp [notifySet?, within, h, Nat.lt_of_succ_le (Nat.le_of_not_lt h)]

theorem routeRights?_toNat (copy pass : Bool) :
    routeRights? (copy.toNat + 2 * pass.toNat) = some { copy := copy, pass := pass } := by
  cases copy <;> cases pass <;> rfl

theorem notifySet?_toNat (copied passed dropped : Bool) :
    notifySet? (copied.toNat + 2 * passed.toNat + 4 * dropped.toNat) =
      some { copied := copied, passed := passed, dropped := dropped } := by
  cases copied <;> cases passed <;> cases dropped <;> rfl

theorem formCreateRoute_isSome (f : CreateRouteFields) : (formCreateRoute f).isSome =
    (within 0 15 f.inlet && within 0 65535 f.label && within 0 3 f.rights && within 1 32 f.quota && within 0 7 f.notify) := by
  rw [← fin?_isSome 15, ← range?_isSome 0 65535, ← routeRights?_isSome, ← range?_isSome 1 32, ← notifySet?_isSome,
    Bool.and_assoc, Bool.and_assoc, Bool.and_assoc]
  exact isSome_bind_of_forall fun _ => isSome_bind_of_forall fun _ => isSome_bind_of_forall fun _ =>
    isSome_bind_of_forall fun _ => isSome_bind_some ..

theorem formCreateRoute_fields (inlet : Fin 16) {label quota : Nat} (copy pass copied passed dropped : Bool)
    (hlabel : label ≤ 65535) (h1 : 1 ≤ quota) (h2 : quota ≤ 32) :
    formCreateRoute
      { inlet := inlet.val, label := label, rights := copy.toNat + 2 * pass.toNat, quota := quota,
        notify := copied.toNat + 2 * passed.toNat + 4 * dropped.toNat } =
      some { inlet := inlet, label := label, rights := { copy := copy, pass := pass }, quota := quota,
             notify := { copied := copied, passed := passed, dropped := dropped } } := by
  simp [formCreateRoute, fin?_val, range?_of_le (Nat.zero_le label) hlabel, range?_of_le h1 h2, Config.quotaMax,
    routeRights?_toNat, notifySet?_toNat]

theorem exec_createRoute (p : Port) (tag : Byte) (b : Body CreateRouteFields) (s : State) :
    exec (.createRoute p tag b) s =
      .next (takeRequest .createRoute p tag ((formOf formCreateRoute b).map (createRouteBlock p)) s) := rfl

theorem exec_createRoute_fields (p : Port) (tag : Byte) (s : State) {f : CreateRouteFields} {o : CreateRouteOp}
    (h : formCreateRoute f = some o) : exec (.createRoute p tag (.fields f)) s =
      .next (takeRequest .createRoute p tag (some (createRouteBlock p o)) s) := by
  rw [exec_createRoute, formOf, h]
  rfl

theorem State.setRoute_onCtl (s : State) (p : Port) (i : Fin 63) (x : Option RouteCopy)
    (g : PortController → PortController) : (s.onCtl p g).setRoute p i x = (s.setRoute p i x).onCtl p g := by
  simp [State.setRoute, State.onCtl]

/-- Family `f` and slot `i` of `p` taken, and the serial counter moved past the slot's serial (R7, R49). -/
def State.routeAdded (s : State) (p : Port) (f : Fin 256) (i : Fin 63) (x : Family) (r : RouteCopy) : State :=
  ((s.onStore fun y => { y with nextSerial := nextNumber r.serial }).setFamily f (some x)).setRoute p i (some r)

section
variable (s : State) (p : Port) (f : Fin 256) (i : Fin 63) (x : Family) (r : RouteCopy)

theorem State.routeAdded_ctl (q : Port) : (s.routeAdded p f i x r).ctl q = s.ctl q := by
  simp [State.routeAdded]

theorem State.routeAdded_onCtl (g : PortController → PortController) :
    (s.onCtl p g).routeAdded p f i x r = (s.routeAdded p f i x r).onCtl p g := by
  rw [State.routeAdded, State.routeAdded, ← State.setRoute_onCtl]
  rfl

theorem State.routeAdded_atnDrive {q : Port} (hq : q ≠ p) : (s.routeAdded p f i x r).atnDrive q = s.atnDrive q :=
  State.drive_onCol (State.setFamily (State.onStore s _) f _) p _ q hq

end

section
variable {s : State} {p : Port} {o : CreateRouteOp}

theorem createRouteBlock_fixed (h : o.inlet = 0) : createRouteBlock p o s = (s, .bare .fixed) := by
  rw [createRouteBlock, if_pos h]

theorem createRouteBlock_inletClosed (h : o.inlet ≠ 0) (hclosed : (s.inlet p o.inlet).state ≠ .opened) :
    createRouteBlock p o s = (s, .bare .inletClosed) := by
  rw [createRouteBlock, if_neg h, if_pos hclosed]

variable (h : o.inlet ≠ 0) (hopen : (s.inlet p o.inlet).state = .opened)
include h hopen

theorem createRouteBlock_noFamily (hf : s.freeFamily = none) : createRouteBlock p o s = (s, .bare .noFamily) := by
  simp [createRouteBlock, h, hopen, hf]

theorem createRouteBlock_tableFull (hf : s.freeFamily ≠ none) (hi : s.freeRoute p = none) :
    createRouteBlock p o s = (s, .bare .tableFull) := by
  obtain ⟨f, hf⟩ := Option.ne_none_iff_exists'.mp hf
  simp [createRouteBlock, h, hopen, hf, hi]

theorem createRouteBlock_ok {f : Fin 256} {i : Fin 63} (hf : s.freeFamily = some f) (hi : s.freeRoute p = some i) :
    createRouteBlock p o s =
      (s.routeAdded p f i
        { state := .active, kind := .ordinary, creator := p, generation := (s.session p).generation,
          targetInlet := o.inlet, label := o.label, rights := o.rights, quota := o.quota, notify := o.notify, copies := 1 }
        { state := .live, family := f, rights := o.rights, quota := o.quota, outstanding := 0, serial := s.drawSerial.1 },
       .now .ok (.createRoute i f s.drawSerial.1)) := by
  simp only [createRouteBlock, h, hopen, hf, hi, ne_eq, not_true_eq_false, if_false]
  rfl

end

/-- A request answered with a family and a route slot taken. -/
theorem takeRequest_routeAdded {k : RequestKind} {s : State} {p : Port} {tag : Byte} {act : State → State × Answer}
    {st : Status} {res : Result} {f : Fin 256} {i : Fin 63} {x : Family} {r : RouteCopy} (hk : k.keepsStream = false)
    (h : s.takesRequests p) (hg : s.gate p k = none)
    (ha : act (s.taken p) = ((s.taken p).routeAdded p f i x r, .now st res)) :
    EqualButLine p (((s.answer p tag k.code st res).setStream p none).routeAdded p f i x r)
      (takeRequest k p tag (some act) s) := by
  apply takeRequest_line ((s.taken p).routeAdded p f i x r) (st := st) (r := res) h hg
  · rw [State.closeStream_closes hk]; exact ha
  · rw [State.answer_closed_eq]; exact State.routeAdded_onCtl ..
  · simp [State.routeAdded_ctl, State.taken, State.noted]
  · intro q hq
    rw [State.routeAdded_atnDrive _ _ _ _ _ _ hq]
    simp only [State.answer, State.setStream, State.onCtl, State.onCol_onCol]
    exact State.drive_onCol _ _ _ q hq

/-- Settles O7: the four tests in their order, each answered without a change, and the family and the slot taken. -/
theorem createRouteMakesAFamily : Obligations.CreateRouteMakesAFamily := by
  unfold Obligations.CreateRouteMakesAFamily
  intro s p tag inlet label quota copy pass copied passed dropped h hlabel hquota hquota' cmd serial isOpen
  have hg : s.gate p .createRoute = none := State.gate_serves _ h rfl
  have hcmd := exec_createRoute_fields p tag s
    (formCreateRoute_fields inlet copy pass copied passed dropped hlabel hquota hquota')
  have hopened (h : isOpen) : ((s.taken p).inlet p inlet).state = .opened := by rw [State.taken_inlet]; exact h.2
  refine ⟨fun b hb => turnsAway_of_malformed (k := .createRoute) rfl h.1 ?_, fun hfixed => ?_, fun hi hclosed => ?_,
    fun ho hfamily => ?_, fun ho ⟨g, hfamily⟩ htable => ?_, fun f i ho hf hleast hi hleast' => ⟨_, hcmd, ?_⟩⟩
  · rw [exec_createRoute, formOf_eq_none formCreateRoute_isSome hb]; rfl
  · exact turnsAway_of_block (k := .createRoute) rfl h.1 hg hcmd (createRouteBlock_fixed hfixed)
  · refine turnsAway_of_block (k := .createRoute) rfl h.1 hg hcmd (createRouteBlock_inletClosed hi ?_)
    rwa [State.taken_inlet]
  · exact turnsAway_of_block (k := .createRoute) rfl h.1 hg hcmd
      (createRouteBlock_noFamily ho.1 (hopened ho) (State.freeFamily_none hfamily))
  · refine turnsAway_of_block (k := .createRoute) rfl h.1 hg hcmd
      (createRouteBlock_tableFull ho.1 (hopened ho) (State.freeFamily_some (f := g) hfamily) (State.freeRoute_none ?_))
    simpa using htable
  · have hfree : (s.taken p).freeRoute p = some i := State.freeRoute_eq (by simpa using hi) (by simpa using hleast')
    have block := createRouteBlock_ok
      (o := { inlet, label, rights := { copy, pass }, quota, notify := { copied, passed, dropped } })
      ho.1 (hopened ho) (State.freeFamily_eq hf hleast) hfree
    have hserial : (s.taken p).drawSerial.1 = serial := State.taken_drawSerial s p
    rw [State.taken_session, hserial] at block
    clear_value serial
    have hadded := takeRequest_routeAdded (k := .createRoute) (tag := tag) rfl h.1 hg block
    rwa [State.routeAdded] at hadded

/-! ### REVOKE_FAMILY -/

theorem exec_revokeFamily (p : Port) (tag : Byte) (f : Fin 256) (s : State) :
    exec (.revokeFamily p tag (.fields f.val)) s =
      .next (takeRequest .revokeFamily p tag (some (revokeFamilyBlock p f)) s) := by
  have hexec : ∀ b, exec (.revokeFamily p tag b) s =
      .next (takeRequest .revokeFamily p tag ((formOf (fin? 256) b).map (revokeFamilyBlock p)) s) := fun _ => rfl
  rw [hexec, formOf, fin?_val]
  rfl

theorem staleRoute_eq (f : Fin 256) (slot : Option RouteCopy) : staleRoute f slot =
    slot.map fun r => if r.state = .live ∧ r.family = f then { r with state := .stale } else r := by
  cases slot with
  | none => rfl
  | some r => exact (apply_ite some _ _ _).symm

theorem liveRoute_eq (f : Fin 256) (slot : Option RouteCopy) : liveRoute f slot =
    slot.any fun r => decide (r.state = .live) && decide (r.family = f) := by
  cases slot <;> rfl

/-- The LIVE slots that name a family, counted agent by agent and slot by slot (R53). -/
theorem State.liveRoutes_eq (s : State) (f : Fin 256) : s.liveRoutes f =
    ((List.finRange 8).map fun q => (List.finRange 63).countP fun i =>
      (s.route q i).any fun r => decide (r.state = .live) && decide (r.family = f)).sum := by
  rw [State.liveRoutes, Tab.cells_eq_map_get, List.map_map]
  simp only [Function.comp_def, Tab.count_eq, liveRoute_eq]
  rfl

theorem State.taken_liveRoutes (s : State) (p : Port) (f : Fin 256) : (s.taken p).liveRoutes f = s.liveRoutes f := by
  simp only [State.liveRoutes_eq, State.taken_route]

/-- R52, the families and the columns apart: nothing else moves. -/
theorem State.revokeFamily_part {s : State} {f : Fin 256} {x : Family} (h : s.family f = some x) :
    s.revokeFamily f = { s with
      families := s.families.put f (some { x with state := .revoked }), columns := (s.revokeFamily f).columns } := by
  simp only [State.revokeFamily, h]
  rfl

/-- R52, column by column: the slots of every agent that are LIVE and name the family become STALE. -/
theorem State.revokeFamily_col {s : State} {f : Fin 256} {x : Family} (h : s.family f = some x) (q : Port) :
    (s.revokeFamily f).col q = { s.col q with
      routes := (s.col q).routes.map fun slot => slot.map fun r =>
        if r.state = .live ∧ r.family = f then { r with state := .stale } else r } := by
  simp only [State.revokeFamily, h, State.col, Tab.get_map, funext (staleRoute_eq f)]
  rfl

theorem State.revokeFamily_onCtl (s : State) (f : Fin 256) (p : Port) (g : PortController → PortController) :
    (s.onCtl p g).revokeFamily f = (s.revokeFamily f).onCtl p g := by
  cases hf : s.family f with
  | none => simp [State.revokeFamily, hf]
  | some x =>
    have hf' : (s.onCtl p g).family f = some x := hf
    refine State.ext_columns ?_ fun q => ?_
    · rw [State.revokeFamily_part hf', State.revokeFamily_part hf]; rfl
    · by_cases hq : q = p
      · subst hq; simp [State.onCtl, State.revokeFamily_col, hf]
      · simp [State.onCtl, State.revokeFamily_col, hf, hq]

section
variable {s : State} {p : Port} {f : Fin 256}

theorem revokeFamilyBlock_badState (h : s.family f = none) : revokeFamilyBlock p f s = (s, .bare .badState) := by
  simp only [revokeFamilyBlock, h]

variable {x : Family} (h : s.family f = some x)
include h

theorem revokeFamilyBlock_notPermitted (hmine : ¬ (x.creator = p ∧ x.generation = (s.session p).generation)) :
    revokeFamilyBlock p f s = (s, .bare .notPermitted) := by
  simp only [revokeFamilyBlock, h, if_pos hmine]

variable (hmine : x.creator = p ∧ x.generation = (s.session p).generation)
include hmine

theorem revokeFamilyBlock_already (hx : x.state = .revoked) : revokeFamilyBlock p f s = (s, .bare .already) := by
  simp only [revokeFamilyBlock, h, not_not.mpr hmine, hx, if_false, if_true]

theorem revokeFamilyBlock_ok (hx : x.state = .active) :
    revokeFamilyBlock p f s = (s.revokeFamily f, .now .ok (.revokeFamily (s.liveRoutes f) x.copies)) := by
  simp [revokeFamilyBlock, h, hmine, hx]

end

/-- What a revocation leaves, the attention lines apart (R52). -/
theorem EqualButLines.revokeFamily {u t : State} {f : Fin 256} {x : Family} (h : EqualButLines (u.revokeFamily f) t)
    (hf : u.family f = some x) :
    t = { u with families := u.families.put f (some { x with state := .revoked }), columns := t.columns } ∧
    ∀ q, t.col q = { u.col q with
      routes := (u.col q).routes.map fun slot => slot.map fun r =>
        if r.state = .live ∧ r.family = f then { r with state := .stale } else r
      port := { u.ctl q with atn := (t.ctl q).atn } } := by
  obtain ⟨hpart, hcol⟩ := h
  refine ⟨?_, fun q => ?_⟩
  · rw [State.revokeFamily_part hf] at hpart
    exact hpart
  · rw [hcol q, (TablesOnly.revokeFamily u f).ctl q, State.revokeFamily_col hf]

/-- A request answered with a family revoked. -/
theorem takeRequest_revokeFamily {k : RequestKind} {s : State} {p : Port} {tag : Byte} {act : State → State × Answer}
    {st : Status} {r : Result} {f : Fin 256} (hk : k.keepsStream = false) (h : s.takesRequests p) (hg : s.gate p k = none)
    (ha : act (s.taken p) = ((s.taken p).revokeFamily f, .now st r)) :
    EqualButLines (((s.answer p tag k.code st r).setStream p none).revokeFamily f)
      (takeRequest k p tag (some act) s) := by
  rw [takeRequest_served (s' := (s.taken p).revokeFamily f) (st := st) (r := r) tag h hg, State.answer_closed_eq]
  · rw [State.revokeFamily_onCtl]
    exact followAtn_lines ..
  · rw [State.closeStream_closes hk]; exact ha
  · rw [(TablesOnly.revokeFamily _ f).ctl]; simp [State.taken, State.noted]

/-- Settles O10: the three tests in their order, each answered without a change, and the revocation of R52. -/
theorem revokeFamilyStalesItsCopies : Obligations.RevokeFamilyStalesItsCopies := by
  unfold Obligations.RevokeFamilyStalesItsCopies
  intro s p tag f h cmd mine stale
  have hg : s.gate p .revokeFamily = none := State.gate_serves _ h rfl
  have hcmd := exec_revokeFamily p tag f s
  have htaken {x : Family} (hx : mine x) : x.creator = p ∧ x.generation = ((s.taken p).session p).generation := by
    rwa [State.taken_session]
  refine ⟨fun hf => ?_, fun x hf hx => ?_, fun x hf hx hrevoked => ?_, fun x hf hx hactive => ?_⟩
  · exact turnsAway_of_block (k := .revokeFamily) rfl h.1 hg hcmd (revokeFamilyBlock_badState hf)
  · refine turnsAway_of_block (k := .revokeFamily) rfl h.1 hg hcmd (revokeFamilyBlock_notPermitted (x := x) hf ?_)
    rwa [State.taken_session]
  · exact turnsAway_of_block (k := .revokeFamily) rfl h.1 hg hcmd (revokeFamilyBlock_already hf (htaken hx) hrevoked)
  · have block := revokeFamilyBlock_ok (s := s.taken p) hf (htaken hx) hactive
    rw [State.taken_liveRoutes, State.liveRoutes_eq] at block
    have hlines := takeRequest_revokeFamily (k := .revokeFamily) (tag := tag) rfl h.1 hg block
    obtain ⟨hpart, hcol⟩ := hlines.revokeFamily (x := x) hf
    refine ⟨_, hcmd, hpart, fun q => ?_⟩
    rw [hcol q, State.answer_closed_routes]
    rfl

end Sys2Proof.Machine

/-! PROOFS. The window, grant and stream requests (07). First the rules they share: a block that acts beside the port's
controller, and what counting a request leaves; then, for each of the six, its form, its block by its tests, and the
statement it settles. The bytes of a stream, written and read, are spoken of by their places: place `k` lies `k` steps from
the cursor. -/

namespace Sys2Proof.Machine

/-! ### A block that acts beside the port's controller -/

/-- A change of the state that neither reads nor moves the controller of `p`, and leaves what drives every other port's
line. -/
structure Beside (p : Port) (v : State → State) : Prop where
  ctl : ∀ u, (v u).ctl p = u.ctl p
  onCtl : ∀ u g, v (u.onCtl p g) = (v u).onCtl p g
  drive : ∀ u q, q ≠ p → (v u).atnDrive q = u.atnDrive q

theorem Beside.refl (p : Port) : Beside p fun u => u := ⟨fun _ => rfl, fun _ _ => rfl, fun _ _ _ => rfl⟩

theorem Beside.trans {p : Port} {v w : State → State} (hv : Beside p v) (hw : Beside p w) : Beside p fun u => w (v u) :=
  ⟨fun u => (hw.ctl _).trans (hv.ctl u), fun u g => by rw [hv.onCtl, hw.onCtl],
    fun u q hq => (hw.drive _ q hq).trans (hv.drive u q hq)⟩

theorem Beside.setStream (p : Port) (x : Option Stream) : Beside p fun u => u.setStream p x :=
  ⟨fun _ => by simp, fun _ _ => by simp [State.setStream, State.onCtl], fun u => State.drive_onCol u p _⟩

theorem Beside.setGrant (p : Port) (i : Fin 8) (x : Option Grant) : Beside p fun u => u.setGrant p i x :=
  ⟨fun _ => by simp, fun _ _ => by simp [State.setGrant, State.onCtl], fun u => State.drive_onCol u p _⟩

theorem Beside.setWindow (p : Port) (w : Fin 32) (x : Option Window) : Beside p fun u => u.setWindow w x :=
  ⟨fun _ => rfl, fun _ _ => rfl, fun _ _ _ => rfl⟩

theorem Beside.withBulk (p : Port) (m : List Host.Cell) : Beside p fun u => { u with bulk := m } :=
  ⟨fun _ => rfl, fun _ _ => rfl, fun _ _ _ => rfl⟩

theorem State.closeStream_keeps {k : RequestKind} (h : k.keepsStream = true) (s : State) (p : Port) :
    s.closeStream p k = s := by
  simp [State.closeStream, h]

theorem Beside.closeStream (p : Port) (k : RequestKind) : Beside p fun u => u.closeStream p k := by
  cases h : k.keepsStream with
  | false => simpa only [State.closeStream_closes h] using Beside.setStream p none
  | true => simpa only [State.closeStream_keeps h] using Beside.refl p

theorem State.answer_atnDrive (s : State) (p : Port) (tag kind : Byte) (st : Status) (r : Result) {q : Port} (hq : q ≠ p) :
    (s.answer p tag kind st r).atnDrive q = s.atnDrive q :=
  State.drive_onCol s p _ q hq

theorem State.answer_closeStream_eq (s : State) (p : Port) (k : RequestKind) (tag : Byte) (st : Status) (r : Result) :
    (s.answer p tag k.code st r).closeStream p k = ((s.noted p).closeStream p k).onCtl p fun c =>
      { c with responses := c.responses ++ [{ tag := tag, kind := k.code, status := st, result := r }] } := by
  rw [State.answer_eq, (Beside.closeStream p k).onCtl]

/-- A request whose block acts beside the port's controller: the answered state, changed as the block changes it. -/
theorem takeRequest_beside {k : RequestKind} {s : State} {p : Port} {tag : Byte} {act : State → State × Answer}
    {st : Status} {r : Result} {v : State → State} (hv : Beside p v) (h : s.takesRequests p) (hg : s.gate p k = none)
    (ha : act ((s.noted p).closeStream p k) = (v ((s.noted p).closeStream p k), .now st r)) :
    EqualButLine p (v ((s.answer p tag k.code st r).closeStream p k)) (takeRequest k p tag (some act) s) := by
  apply takeRequest_line (v ((s.noted p).closeStream p k)) h hg ha
  · rw [State.answer_closeStream_eq, hv.onCtl]
  · rw [hv.ctl]; simp [State.noted]
  · intro q hq
    rw [hv.drive _ q hq, (Beside.closeStream p k).drive _ q hq, State.answer_atnDrive _ _ _ _ _ _ hq]

section
variable {k : RequestKind} {s : State} {p : Port} {tag : Byte} {act : State → State × Answer} {st : Status} {r : Result}
  {v : State → State}

/-- The same for a request that closes the stream (R140). -/
theorem takeRequest_beside_closed (hk : k.keepsStream = false) (hv : Beside p v) (h : s.takesRequests p)
    (hg : s.gate p k = none) (ha : act (s.taken p) = (v (s.taken p), .now st r)) :
    EqualButLine p (v ((s.answer p tag k.code st r).setStream p none)) (takeRequest k p tag (some act) s) := by
  rw [← State.closeStream_closes hk]
  exact takeRequest_beside hv h hg (by rw [State.closeStream_closes hk]; exact ha)

/-- The same for STREAM_DATA and STREAM_READ, which keep it. -/
theorem takeRequest_beside_kept (hk : k.keepsStream = true) (hv : Beside p v) (h : s.takesRequests p)
    (hg : s.gate p k = none) (ha : act (s.noted p) = (v (s.noted p), .now st r)) :
    EqualButLine p (v (s.answer p tag k.code st r)) (takeRequest k p tag (some act) s) := by
  rw [← State.closeStream_keeps hk (s.answer p tag k.code st r) p]
  exact takeRequest_beside hv h hg (by rw [State.closeStream_keeps hk]; exact ha)

end

/-- A request that is not well made is answered BAD_REQUEST and changes nothing but what every request of its kind does. -/
theorem takeRequest_badRequest {s : State} {p : Port} (k : RequestKind) (tag : Byte) (h : s.takesRequests p) :
    EqualButLine p ((s.answer p tag k.code .badRequest .none).closeStream p k) (takeRequest k p tag none s) := by
  rw [takeRequest_malformed k tag h, ← State.answer_closeStream_eq]
  refine followAtn_line _ _ _ fun q hq => ?_
  rw [(Beside.closeStream p k).drive _ q hq, State.answer_atnDrive _ _ _ _ _ _ hq]

/-! ### What counting a request leaves -/

@[simp] theorem State.taken_grant (s : State) (p q : Port) (i : Fin 8) : (s.taken p).grant q i = s.grant q i := by
  simp [State.taken, State.noted]

@[simp] theorem State.noted_stream (s : State) (p q : Port) : (s.noted p).stream q = s.stream q := by
  simp [State.noted]

theorem State.setStream_setStream (s : State) (p : Port) (x y : Option Stream) :
    (s.setStream p x).setStream p y = s.setStream p y :=
  State.onCol_onCol s p _ _

theorem State.freeWindow_eq {s : State} {w : Fin 32} (h : s.window w = none) (hl : ∀ v, v < w → s.window v ≠ none) :
    s.freeWindow = some w :=
  Tab.first_eq (Option.isNone_iff_eq_none.mpr h) fun v hv =>
    Option.isNone_eq_false_iff.mpr (Option.isSome_iff_ne_none.mpr (hl v hv))

theorem State.freeWindow_some {s : State} {w : Fin 32} (h : s.window w = none) : s.freeWindow ≠ none :=
  Tab.first_some (i := w) (Option.isNone_iff_eq_none.mpr h)

theorem State.freeWindow_none {s : State} (h : ∀ w, s.window w ≠ none) : s.freeWindow = none :=
  Tab.first_none fun w => Option.isNone_eq_false_iff.mpr (Option.isSome_iff_ne_none.mpr (h w))

/-! ### CREATE_WINDOW -/

theorem formCreateWindow_isSome (f : CreateWindowFields) : (formCreateWindow f).isSome =
    (within 0 262143 f.base && within 0 262143 f.limit && decide (f.base ≤ f.limit) && within 0 1 f.share) := by
  rw [← fin?_isSome, ← fin?_isSome, ← flag?_isSome]
  by_cases hbase : f.base < 262144
  · by_cases hlimit : f.limit < 262144
    · cases hshare : flag? f.share with
      | none => simp [formCreateWindow, fin?, hbase, hlimit, hshare]
      | some share =>
        by_cases hle : f.base ≤ f.limit <;> simp [formCreateWindow, fin?, hbase, hlimit, hshare, hle]
    · simp [formCreateWindow, fin?, hbase, hlimit]
  · simp [formCreateWindow, fin?, hbase]

theorem formCreateWindow_fields {base limit : Fin 262144} (share : Bool) (h : base ≤ limit) :
    formCreateWindow { base := base.val, limit := limit.val, share := share.toNat } =
      some { base := base, limit := limit, share := share } := by
  simp [formCreateWindow, fin?_val, flag?_toNat, h]

theorem exec_createWindow (p : Port) (tag : Byte) (b : Body CreateWindowFields) (s : State) :
    exec (.createWindow p tag b) s =
      .next (takeRequest .createWindow p tag ((formOf formCreateWindow b).map (createWindowBlock p)) s) := rfl

theorem exec_createWindow_fields (p : Port) (tag : Byte) (s : State) {f : CreateWindowFields} {o : CreateWindowOp}
    (h : formCreateWindow f = some o) : exec (.createWindow p tag (.fields f)) s =
      .next (takeRequest .createWindow p tag (some (createWindowBlock p o)) s) := by
  rw [exec_createWindow, formOf, h]
  rfl

/-- Base and limit both lie within the partition (R133) when the base is not below it and the limit not beyond it. -/
theorem PortSettings.holds_iff (x : PortSettings) {base limit : Nat} (h : base ≤ limit) :
    x.holds base limit = true ↔ x.partitionBase ≤ base ∧ limit < x.partitionBase + x.partitionLength := by
  simp only [PortSettings.holds, Bool.and_eq_true, decide_eq_true_eq]
  omega

section
variable {s : State} {p : Port} {o : CreateWindowOp}

theorem createWindowBlock_outOfPartition (h : (s.settings p).holds o.base.val o.limit.val = false) :
    createWindowBlock p o s = (s, .bare .outOfPartition) := by
  rw [createWindowBlock, if_pos h]

variable (h : (s.settings p).holds o.base.val o.limit.val = true)
include h

theorem createWindowBlock_noWindow (hw : s.freeWindow = none) : createWindowBlock p o s = (s, .bare .noWindow) := by
  simp [createWindowBlock, h, hw]

theorem createWindowBlock_tableFull (hw : s.freeWindow ≠ none) (hi : s.freeGrant p = none) :
    createWindowBlock p o s = (s, .bare .tableFull) := by
  obtain ⟨w, hw⟩ := Option.ne_none_iff_exists'.mp hw
  simp [createWindowBlock, h, hw, hi]

theorem createWindowBlock_ok {w : Fin 32} {i : Fin 8} (hw : s.freeWindow = some w) (hi : s.freeGrant p = some i) :
    createWindowBlock p o s =
      ((s.setWindow w (some
          { state := .opened, owner := p, generation := (s.session p).generation, base := o.base, limit := o.limit,
            share := o.share, grants := 1 })).setGrant p i (some
          { state := .live, window := w, rights := { read := true, write := true } }),
       .now .ok (.createWindow w i)) := by
  simp [createWindowBlock, h, hw, hi]

end

/-- Settles O19: the three tests in their order, each answered without a change, and the window and the grant taken. -/
theorem createWindowMakesAWindow : Obligations.CreateWindowMakesAWindow := by
  unfold Obligations.CreateWindowMakesAWindow
  intro s p tag base limit share h hle cmd held
  have hg : s.gate p .createWindow = none := State.gate_serves _ h rfl
  have hcmd := exec_createWindow_fields p tag s (formCreateWindow_fields share hle)
  have hheld : ((s.taken p).settings p).holds base.val limit.val = true ↔ held := PortSettings.holds_iff (s.settings p) hle
  refine ⟨fun b hb => turnsAway_of_malformed (k := .createWindow) rfl h.1 ?_, fun hout => ?_, fun hin hwindows => ?_,
    fun hin ⟨v, hv⟩ htable => ?_, fun w i hin hw hleast hi hleast' => ⟨_, hcmd, ?_⟩⟩
  · rw [exec_createWindow, formOf_eq_none formCreateWindow_isSome hb]; rfl
  · exact turnsAway_of_block (k := .createWindow) rfl h.1 hg hcmd
      (createWindowBlock_outOfPartition (Bool.eq_false_iff.mpr fun hin => hout (hheld.mp hin)))
  · exact turnsAway_of_block (k := .createWindow) rfl h.1 hg hcmd
      (createWindowBlock_noWindow (hheld.mpr hin) (State.freeWindow_none hwindows))
  · refine turnsAway_of_block (k := .createWindow) rfl h.1 hg hcmd
      (createWindowBlock_tableFull (hheld.mpr hin) (State.freeWindow_some (w := v) hv) (State.freeGrant_none ?_))
    simpa using htable
  · have hfree : (s.taken p).freeGrant p = some i := State.freeGrant_eq (by simpa using hi) (by simpa using hleast')
    have block := createWindowBlock_ok (o := { base, limit, share }) (hheld.mpr hin) (State.freeWindow_eq hw hleast) hfree
    rw [State.taken_session] at block
    exact takeRequest_beside_closed (k := .createWindow) rfl
      ((Beside.setWindow p w _).trans (Beside.setGrant p i _)) h.1 hg block

/-! ### CLOSE_WINDOW -/

theorem exec_closeWindow (p : Port) (tag : Byte) (i : Fin 8) (s : State) :
    exec (.closeWindow p tag (.fields i.val)) s =
      .next (takeRequest .closeWindow p tag (some (closeWindowBlock p i)) s) := by
  have hexec : ∀ b, exec (.closeWindow p tag b) s =
      .next (takeRequest .closeWindow p tag ((formOf (fin? 8) b).map (closeWindowBlock p)) s) := fun _ => rfl
  rw [hexec, formOf, fin?_val]
  rfl

theorem staleGrant_eq (w : Fin 32) (slot : Option Grant) : staleGrant w slot =
    slot.map fun g => if g.state = .live ∧ g.window = w then { g with state := .stale } else g := by
  cases slot with
  | none => rfl
  | some g => exact (apply_ite some _ _ _).symm

theorem breakStream_eq (w : Fin 32) (x : Option Stream) : breakStream w x =
    x.map fun x => if x.state ≠ .broken ∧ x.window = w then { x with state := .broken } else x := by
  cases x with
  | none => rfl
  | some x => exact (apply_ite some _ _ _).symm

theorem liveGrant_eq (w : Fin 32) (slot : Option Grant) : liveGrant w slot =
    slot.any fun g => decide (g.state = .live) && decide (g.window = w) := by
  cases slot <;> rfl

theorem openOn_eq (w : Fin 32) (x : Option Stream) : openOn w x =
    x.any fun x => decide (x.state ≠ .broken) && decide (x.window = w) := by
  cases x <;> rfl

/-- The LIVE slots that name a window, counted agent by agent and slot by slot (R134). -/
theorem State.liveGrants_eq (s : State) (w : Fin 32) : s.liveGrants w =
    ((List.finRange 8).map fun q => (List.finRange 8).countP fun j =>
      (s.grant q j).any fun g => decide (g.state = .live) && decide (g.window = w)).sum := by
  rw [State.liveGrants, Tab.cells_eq_map_get, List.map_map]
  simp only [Function.comp_def, Tab.count_eq, liveGrant_eq]
  rfl

/-- The streams open on a window, counted port by port (R134). -/
theorem State.openStreams_eq (s : State) (w : Fin 32) : s.openStreams w =
    (List.finRange 8).countP fun q => (s.stream q).any fun x => decide (x.state ≠ .broken) && decide (x.window = w) := by
  rw [State.openStreams, Tab.cells_eq_map_get, List.countP_map]
  simp only [Function.comp_def, openOn_eq]
  rfl

theorem State.taken_liveGrants (s : State) (p : Port) (w : Fin 32) : (s.taken p).liveGrants w = s.liveGrants w := by
  simp only [State.liveGrants_eq, State.taken_grant]

theorem State.taken_stream (s : State) (p q : Port) : (s.taken p).stream q = if q = p then none else s.stream q := by
  by_cases h : q = p
  · subst h; simp [State.taken]
  · simp [State.taken, h]

/-- A request has closed the stream of its own port, which is then not among the open ones (R140). -/
theorem State.taken_openStreams (s : State) (p : Port) (w : Fin 32) : (s.taken p).openStreams w =
    (List.finRange 8).countP fun q => decide (q ≠ p) &&
      (s.stream q).any fun x => decide (x.state ≠ .broken) && decide (x.window = w) := by
  rw [State.openStreams_eq]
  refine List.countP_congr fun q _ => ?_
  by_cases h : q = p <;> simp [State.taken_stream, h]

/-- R135, the windows and the columns apart: nothing else moves. -/
theorem State.revokeWindow_part {s : State} {w : Fin 32} {x : Window} (h : s.window w = some x) :
    s.revokeWindow w = { s with
      windows := s.windows.put w (some { x with state := .revoked }), columns := (s.revokeWindow w).columns } := by
  simp only [State.revokeWindow, h]
  rfl

/-- R135, column by column: the LIVE slots that name the window become STALE, the streams open over it BROKEN. -/
theorem State.revokeWindow_col {s : State} {w : Fin 32} {x : Window} (h : s.window w = some x) (q : Port) :
    (s.revokeWindow w).col q = { s.col q with
      grants := (s.col q).grants.map fun slot => slot.map fun g =>
        if g.state = .live ∧ g.window = w then { g with state := .stale } else g
      stream := (s.stream q).map fun x =>
        if x.state ≠ .broken ∧ x.window = w then { x with state := .broken } else x } := by
  simp only [State.revokeWindow, h, State.col, Tab.get_map, funext (staleGrant_eq w), breakStream_eq w]
  rfl

theorem State.revokeWindow_onCtl (s : State) (w : Fin 32) (p : Port) (g : PortController → PortController) :
    (s.onCtl p g).revokeWindow w = (s.revokeWindow w).onCtl p g := by
  cases hw : s.window w with
  | none => simp [State.revokeWindow, hw]
  | some x =>
    have hw' : (s.onCtl p g).window w = some x := hw
    refine State.ext_columns ?_ fun q => ?_
    · rw [State.revokeWindow_part hw', State.revokeWindow_part hw]; rfl
    · by_cases hq : q = p
      · subst hq; simp [State.onCtl, State.revokeWindow_col, State.stream, hw]
      · simp [State.onCtl, State.revokeWindow_col, State.stream, hw, hq]

theorem State.revokeWindow_atnDrive (s : State) (w : Fin 32) (q : Port) :
    (s.revokeWindow w).atnDrive q = s.atnDrive q := by
  have calm := Calm.revokeWindow s w
  cases hw : s.window w with
  | none => simp [State.revokeWindow, hw]
  | some x =>
    refine State.atnDrive_congr calm.rstnLow calm.controller ?_ ?_ ?_ ?_
    · simp only [State.settings, calm.config]
    all_goals simp only [State.session, State.revokeWindow_col hw, Column.waiting]

theorem Beside.revokeWindow (p : Port) (w : Fin 32) : Beside p fun u => u.revokeWindow w :=
  ⟨fun u => (Calm.revokeWindow u w).ctl p, fun u => State.revokeWindow_onCtl u w p,
    fun u q _ => State.revokeWindow_atnDrive u w q⟩

section
variable {s : State} {p : Port} {i : Fin 8}

theorem closeWindowBlock_noGrant (h : s.grant p i = none) : closeWindowBlock p i s = (s, .bare .noGrant) := by
  simp only [closeWindowBlock, h]

variable {g : Grant} (h : s.grant p i = some g)
include h

theorem closeWindowBlock_badState (hstate : g.state = .reserved) : closeWindowBlock p i s = (s, .bare .badState) := by
  simp only [closeWindowBlock, h, if_pos hstate]

variable {w : Window} (hstate : g.state ≠ .reserved) (hw : s.window g.window = some w)
include hstate hw

theorem closeWindowBlock_notPermitted (hmine : ¬ (w.owner = p ∧ w.generation = (s.session p).generation)) :
    closeWindowBlock p i s = (s, .bare .notPermitted) := by
  simp only [closeWindowBlock, h, if_neg hstate, hw, if_pos hmine]

variable (hmine : w.owner = p ∧ w.generation = (s.session p).generation)
include hmine

theorem closeWindowBlock_already (hrevoked : w.state = .revoked) : closeWindowBlock p i s = (s, .bare .already) := by
  simp only [closeWindowBlock, h, if_neg hstate, hw, if_neg (not_not.mpr hmine), if_pos hrevoked]

theorem closeWindowBlock_ok (hopened : w.state = .opened) : closeWindowBlock p i s = (s.revokeWindow g.window,
    .now .ok (.closeWindow g.window (s.liveGrants g.window) (s.openStreams g.window) w.grants)) := by
  simp [closeWindowBlock, h, hstate, hw, hmine, hopened]

end

/-- Where one line alone may differ, no other does. -/
theorem EqualButLine.lines {u t : State} {p : Port} (h : EqualButLine p u t) : EqualButLines u t := by
  rw [EqualButLine] at h
  generalize (t.ctl p).atn = line at h
  subst h
  refine ⟨rfl, fun q => ?_⟩
  by_cases hq : q = p
  · subst hq; simp [State.onCtl, State.ctl]
  · simp [State.onCtl, State.ctl, hq]

/-- What a revocation leaves, the attention lines apart (R135). -/
theorem EqualButLines.revokeWindow {u t : State} {w : Fin 32} {x : Window} (h : EqualButLines (u.revokeWindow w) t)
    (hw : u.window w = some x) :
    t = { u with windows := u.windows.put w (some { x with state := .revoked }), columns := t.columns } ∧
    ∀ q, t.col q = { u.col q with
      grants := (u.col q).grants.map fun slot => slot.map fun g =>
        if g.state = .live ∧ g.window = w then { g with state := .stale } else g
      stream := (u.stream q).map fun x =>
        if x.state ≠ .broken ∧ x.window = w then { x with state := .broken } else x
      port := { u.ctl q with atn := (t.ctl q).atn } } := by
  obtain ⟨hpart, hcol⟩ := h
  refine ⟨?_, fun q => ?_⟩
  · rw [State.revokeWindow_part hw] at hpart
    exact hpart
  · rw [hcol q, (Calm.revokeWindow u w).ctl q, State.revokeWindow_col hw]

theorem State.answer_closed_grants (s : State) (p : Port) (tag kind : Byte) (st : Status) (r : Result) (q : Port) :
    (((s.answer p tag kind st r).setStream p none).col q).grants = (s.col q).grants := by
  simp only [State.answer, State.setStream, State.onCtl, State.onCol_onCol]
  refine State.onCol_keeps s p Column.grants ?_ q
  exact fun _ => rfl

/-- Settles O20: the four tests in their order, each answered without a change, and the revocation of R135. -/
theorem closeWindowRevokes : Obligations.CloseWindowRevokes := by
  unfold Obligations.CloseWindowRevokes
  intro s p tag i h cmd mine
  have hg : s.gate p .closeWindow = none := State.gate_serves _ h rfl
  have hcmd := exec_closeWindow p tag i s
  have hslot {x : Option Grant} (hx : s.grant p i = x) : (s.taken p).grant p i = x := by rwa [State.taken_grant]
  have htaken {w : Window} (hw : mine w) : w.owner = p ∧ w.generation = ((s.taken p).session p).generation := by
    rwa [State.taken_session]
  refine ⟨fun hi => ?_, fun g hi hstate => ?_, fun g w hi hstate hw hmine => ?_, fun g w hi hstate hw hmine hrevoked => ?_,
    fun g w hi hstate hw hmine hopened => ?_⟩
  · exact turnsAway_of_block (k := .closeWindow) rfl h.1 hg hcmd (closeWindowBlock_noGrant (hslot hi))
  · exact turnsAway_of_block (k := .closeWindow) rfl h.1 hg hcmd (closeWindowBlock_badState (hslot hi) hstate)
  · refine turnsAway_of_block (k := .closeWindow) rfl h.1 hg hcmd
      (closeWindowBlock_notPermitted (w := w) (hslot hi) hstate hw ?_)
    rwa [State.taken_session]
  · exact turnsAway_of_block (k := .closeWindow) rfl h.1 hg hcmd
      (closeWindowBlock_already (hslot hi) hstate hw (htaken hmine) hrevoked)
  · have block := closeWindowBlock_ok (s := s.taken p) (hslot hi) hstate hw (htaken hmine) hopened
    rw [State.taken_liveGrants, State.liveGrants_eq, State.taken_openStreams] at block
    have hline := takeRequest_beside_closed (k := .closeWindow) (tag := tag) rfl
      (Beside.revokeWindow p g.window) h.1 hg block
    obtain ⟨hpart, hcol⟩ := hline.lines.revokeWindow (x := w) hw
    refine ⟨_, hcmd, hpart, fun q => ?_⟩
    rw [hcol q, State.answer_closed_grants]
    rfl

/-! ### DROP_GRANT -/

theorem exec_dropGrant (p : Port) (tag : Byte) (i : Fin 8) (s : State) :
    exec (.dropGrant p tag (.fields i.val)) s =
      .next (takeRequest .dropGrant p tag (some (dropGrantBlock p i)) s) := by
  have hexec : ∀ b, exec (.dropGrant p tag b) s =
      .next (takeRequest .dropGrant p tag ((formOf (fin? 8) b).map (dropGrantBlock p)) s) := fun _ => rfl
  rw [hexec, formOf, fin?_val]
  rfl

/-- The grant count of a window that has lost one grant (R146). -/
theorem State.grants_lowered (s : State) (w : Fin 32) (x : Window) :
    (s.setWindow w x.lowered).grants w = x.grants - 1 := by
  rw [State.grants, State.setWindow_window_same, Window.lowered]
  split
  · next y hy =>
    split_ifs at hy
    cases hy; rfl
  · next hy =>
    split_ifs at hy
    omega

section
variable {s : State} {p : Port} {i : Fin 8}

theorem dropGrantBlock_noGrant (h : s.grant p i = none) : dropGrantBlock p i s = (s, .bare .noGrant) := by
  simp only [dropGrantBlock, h]

variable {g : Grant} (h : s.grant p i = some g)
include h

theorem dropGrantBlock_badState (hstate : g.state = .reserved) : dropGrantBlock p i s = (s, .bare .badState) := by
  simp only [dropGrantBlock, h, if_pos hstate]

theorem dropGrantBlock_ok {w : Window} (hstate : g.state ≠ .reserved) (hw : s.window g.window = some w) :
    dropGrantBlock p i s =
      ((s.setGrant p i none).setWindow g.window w.lowered, .now .ok (.dropGrant g.window (w.grants - 1))) := by
  have hlower : (s.setGrant p i none).lowerWindow g.window = (s.setGrant p i none).setWindow g.window w.lowered :=
    State.lowerWindow_eq hw
  simp only [dropGrantBlock, h, if_neg hstate, hlower, State.grants_lowered]

end

/-- Settles O21: a FREE and a RESERVED slot answered without a change, and the slot freed with its window's count lowered. -/
theorem dropGrantFreesTheSlot : Obligations.DropGrantFreesTheSlot := by
  unfold Obligations.DropGrantFreesTheSlot
  intro s p tag i h cmd
  have hg : s.gate p .dropGrant = none := State.gate_serves _ h rfl
  have hcmd := exec_dropGrant p tag i s
  have hslot {x : Option Grant} (hx : s.grant p i = x) : (s.taken p).grant p i = x := by rwa [State.taken_grant]
  refine ⟨fun hi => ?_, fun g hi hstate => ?_, fun g w hi hstate hw => ⟨_, hcmd, ?_⟩⟩
  · exact turnsAway_of_block (k := .dropGrant) rfl h.1 hg hcmd (dropGrantBlock_noGrant (hslot hi))
  · exact turnsAway_of_block (k := .dropGrant) rfl h.1 hg hcmd (dropGrantBlock_badState (hslot hi) hstate)
  · exact takeRequest_beside_closed (k := .dropGrant) rfl
      ((Beside.setGrant p i none).trans (Beside.setWindow p g.window w.lowered)) h.1 hg
      (dropGrantBlock_ok (hslot hi) hstate hw)


/-! ### STREAM_OPEN -/

theorem direction?_isSome (x : Nat) : (direction? x).isSome = within 0 1 x := by
  match x with
  | 0 | 1 => rfl
  | n + 2 => simp [direction?, within]

theorem order?_isSome (x : Nat) : (order? x).isSome = within 0 1 x := by
  match x with
  | 0 | 1 => rfl
  | n + 2 => simp [order?, within]

theorem direction?_toNat (read : Bool) : direction? read.toNat = some (if read then .read else .write) := by
  cases read <;> rfl

theorem order?_toNat (descending : Bool) :
    order? descending.toNat = some (if descending then .descending else .ascending) := by
  cases descending <;> rfl

theorem formStreamOpen_isSome (f : StreamOpenFields) :
    (formStreamOpen f).isSome = (within 0 7 f.slot && within 0 1 f.direction && within 0 1 f.order) := by
  rw [← fin?_isSome, ← direction?_isSome, ← order?_isSome, Bool.and_assoc]
  exact isSome_bind_of_forall fun _ => isSome_bind_of_forall fun _ => isSome_bind_some ..

theorem formStreamOpen_fields (i : Fin 8) (read descending : Bool) :
    formStreamOpen { slot := i.val, direction := read.toNat, order := descending.toNat } =
      some { slot := i, direction := if read then .read else .write,
             order := if descending then .descending else .ascending } := by
  simp [formStreamOpen, fin?_val, direction?_toNat, order?_toNat]

theorem exec_streamOpen (p : Port) (tag : Byte) (b : Body StreamOpenFields) (s : State) : exec (.streamOpen p tag b) s =
    .next (takeRequest .streamOpen p tag ((formOf formStreamOpen b).map (streamOpenBlock p)) s) := rfl

theorem exec_streamOpen_fields (p : Port) (tag : Byte) (s : State) {f : StreamOpenFields} {o : StreamOpenOp}
    (h : formStreamOpen f = some o) : exec (.streamOpen p tag (.fields f)) s =
      .next (takeRequest .streamOpen p tag (some (streamOpenBlock p o)) s) := by
  rw [exec_streamOpen, formOf, h]
  rfl

/-- The right a direction needs (R141). -/
theorem GrantRights.allows_direction (r : GrantRights) (read : Bool) :
    r.allows (if read then .read else .write) = if read then r.read else r.write := by
  cases read <;> rfl

theorem openStream_eq (n : Fin 32) (w : Window) (i : Fin 8) (read descending : Bool) :
    openStream n w { slot := i, direction := if read then .read else .write,
                     order := if descending then .descending else .ascending } =
      { state := if read then .read else .write, window := n, base := w.base, limit := w.limit,
        order := if descending then .descending else .ascending,
        cursor := if descending then (w.limit.val : Int) else w.base.val } := by
  cases read <;> cases descending <;> rfl

section
variable {s : State} {p : Port} {o : StreamOpenOp}

theorem streamOpenBlock_noGrant (h : s.grant p o.slot = none) : streamOpenBlock p o s = (s, .bare .noGrant) := by
  simp only [streamOpenBlock, h]

variable {g : Grant} (h : s.grant p o.slot = some g)
include h

theorem streamOpenBlock_badState (hstate : g.state = .reserved) : streamOpenBlock p o s = (s, .bare .badState) := by
  simp only [streamOpenBlock, h, hstate]

theorem streamOpenBlock_revoked (hstate : g.state = .stale) : streamOpenBlock p o s = (s, .bare .revoked) := by
  simp only [streamOpenBlock, h, hstate]

variable (hstate : g.state = .live)
include hstate

theorem streamOpenBlock_noRight (hright : g.rights.allows o.direction = false) :
    streamOpenBlock p o s = (s, .bare .noRight) := by
  simp only [streamOpenBlock, h, hstate, if_pos hright]

theorem streamOpenBlock_ok {w : Window} (hright : g.rights.allows o.direction = true) (hw : s.window g.window = some w) :
    streamOpenBlock p o s = (s.setStream p (some (openStream g.window w o)),
      .now .ok (.streamOpen g.window w.base w.limit g.rights (openStream g.window w o).cursor)) := by
  simp [streamOpenBlock, h, hstate, hright, hw]

end

/-- Settles O22: the four tests in their order, each leaving the stream NONE, and the stream opened. -/
theorem streamOpenInOrder : Obligations.StreamOpenInOrder := by
  unfold Obligations.StreamOpenInOrder
  intro s p tag i read descending h open'
  have hg : s.gate p .streamOpen = none := State.gate_serves _ h rfl
  have hcmd := exec_streamOpen_fields p tag s (formStreamOpen_fields i read descending)
  have hslot {x : Option Grant} (hx : s.grant p i = x) : (s.taken p).grant p i = x := by rwa [State.taken_grant]
  refine ⟨fun b hb => turnsAway_of_malformed (k := .streamOpen) rfl h.1 ?_, fun hi => ?_, fun g hi hstate => ?_,
    fun g hi hstate => ?_, fun g hi hstate hright => ?_, fun g w hi hstate hright hw => ⟨_, hcmd, ?_⟩⟩
  · rw [exec_streamOpen, formOf_eq_none formStreamOpen_isSome hb]; rfl
  · exact turnsAway_of_block (k := .streamOpen) rfl h.1 hg hcmd (streamOpenBlock_noGrant (hslot hi))
  · exact turnsAway_of_block (k := .streamOpen) rfl h.1 hg hcmd (streamOpenBlock_badState (hslot hi) hstate)
  · exact turnsAway_of_block (k := .streamOpen) rfl h.1 hg hcmd (streamOpenBlock_revoked (hslot hi) hstate)
  · rw [← GrantRights.allows_direction] at hright
    exact turnsAway_of_block (k := .streamOpen) rfl h.1 hg hcmd (streamOpenBlock_noRight (hslot hi) hstate hright)
  · rw [← GrantRights.allows_direction] at hright
    have block := streamOpenBlock_ok (s := s.taken p)
      (o := { slot := i, direction := if read then .read else .write,
              order := if descending then .descending else .ascending }) (hslot hi) hstate hright hw
    rw [openStream_eq] at block
    have hline := takeRequest_beside_closed (k := .streamOpen) (tag := tag) rfl (Beside.setStream p _) h.1 hg block
    rwa [State.setStream_setStream] at hline

/-! ### The places of a stream -/

/-- The offset `k` steps from the cursor in the stream's order. -/
def Stream.place (x : Stream) (k : Nat) : Int :=
  match x.order with
  | .ascending => x.cursor + k
  | .descending => x.cursor - k

/-- An offset lies within the stream's window, base through limit. -/
def Stream.holds (x : Stream) (z : Int) : Bool := decide ((x.base.val : Int) ≤ z ∧ z ≤ x.limit.val)

/-- The stream with its cursor `n` steps on, stopped at 262144 going up and at -1 going down (R142). -/
def Stream.moved (x : Stream) (n : Nat) : Stream :=
  { x with cursor := match x.order with
      | .ascending => max x.cursor (min (x.cursor + n) 262144)
      | .descending => min x.cursor (max (x.cursor - n) (-1)) }

theorem Stream.holds_iff (x : Stream) (z : Int) : x.holds z = true ↔ (x.base.val : Int) ≤ z ∧ z ≤ x.limit.val :=
  decide_eq_true_iff

theorem Stream.holds_bounds {x : Stream} {z : Int} (h : x.holds z = true) : 0 ≤ z ∧ z < 262144 := by
  have hlimit := x.limit.isLt
  rw [Stream.holds_iff] at h
  omega

theorem Stream.within_eq (x : Stream) : x.within = x.holds x.cursor := (Bool.decide_and ..).symm

theorem Stream.place_zero (x : Stream) : x.place 0 = x.cursor := by
  cases h : x.order <;> simp [Stream.place, h]

theorem Stream.place_injective (x : Stream) {j k : Nat} (h : x.place j = x.place k) : j = k := by
  cases ho : x.order <;> simp only [Stream.place, ho] at h <;> omega

theorem Stream.moved_zero (x : Stream) : x.moved 0 = x := by
  obtain ⟨_, _, _, _, order, cursor⟩ := x
  cases order <;> simp [Stream.moved]

theorem Stream.advance_moved (x : Stream) (n : Nat) : x.advance.moved n = x.moved (n + 1) := by
  obtain ⟨_, _, base, limit, order, cursor⟩ := x
  cases order <;> simp only [Stream.moved, Stream.advance, Stream.mk.injEq, true_and] <;> split_ifs <;> omega

/-- While a further step stays within bulk memory, it is one step from where the cursor moves. -/
theorem Stream.advance_place {x : Stream} {k : Nat} (h : 0 ≤ x.place (k + 1) ∧ x.place (k + 1) < 262144 ∨
    0 ≤ x.advance.place k ∧ x.advance.place k < 262144) : x.advance.place k = x.place (k + 1) := by
  obtain ⟨_, _, base, limit, order, cursor⟩ := x
  cases order <;> simp only [Stream.place, Stream.advance] at h ⊢ <;> split_ifs at h ⊢ <;> omega

theorem Stream.advance_holds (x : Stream) (z : Int) : x.advance.holds z = x.holds z := by
  obtain ⟨_, _, base, limit, order, cursor⟩ := x
  cases order <;> rfl

/-- A byte's place lies within the window whether it is counted from the cursor or from the cursor one step on. -/
theorem Stream.advance_holds_place (x : Stream) (k : Nat) :
    x.advance.holds (x.advance.place k) = x.holds (x.place (k + 1)) := by
  rw [Stream.advance_holds, Bool.eq_iff_iff]
  constructor <;> intro h
  · rwa [← Stream.advance_place (.inr (Stream.holds_bounds h))]
  · rwa [Stream.advance_place (.inl (Stream.holds_bounds h))]

/-! ### The bytes of a STREAM_DATA -/

/-- Bulk memory with one byte stored at the cursor, or discarded outside the window (R142). -/
def Stream.store (x : Stream) (b : Byte) (m : List Host.Cell) : List Host.Cell :=
  if x.holds x.cursor then Memory.write m x.cursor.toNat b else m

theorem Stream.store_wf (x : Stream) (b : Byte) {m : List Host.Cell} (h : Memory.wf m = true) :
    Memory.wf (x.store b m) = true := by
  rw [Stream.store]
  split
  · next hin =>
    have := Stream.holds_bounds hin
    exact Memory.wf_write h (by rw [Config.bulkBytes]; omega)
  · exact h

theorem Stream.store_read_ne {x : Stream} (b : Byte) (m : List Host.Cell) {a : Nat}
    (h : x.holds x.cursor = true → (a : Int) ≠ x.cursor) : Memory.read (x.store b m) a = Memory.read m a := by
  rw [Stream.store]
  split
  · next hin =>
    have := Stream.holds_bounds hin
    exact Memory.read_write_ne fun ha => h hin (by omega)
  · rfl

theorem streamWrite_cons (b : Byte) (bs : List Byte) (m : List Host.Cell) (x : Stream) :
    streamWrite (b :: bs) m x =
      ((streamWrite bs (x.store b m) x.advance).1, (streamWrite bs (x.store b m) x.advance).2.1,
        (streamWrite bs (x.store b m) x.advance).2.2 + if x.holds x.cursor then 1 else 0) := by
  rw [streamWrite, Stream.store, Stream.within_eq]
  split <;> rfl

theorem streamWrite_stream (bs : List Byte) (m : List Host.Cell) (x : Stream) :
    (streamWrite bs m x).2.1 = x.moved bs.length := by
  induction bs generalizing m x with
  | nil => exact x.moved_zero.symm
  | cons b bs ih => rw [streamWrite_cons, ih, Stream.advance_moved]; rfl

/-- The bytes written are those whose place lies within the window (R142). -/
theorem streamWrite_count (bs : List Byte) (m : List Host.Cell) (x : Stream) :
    (streamWrite bs m x).2.2 = (List.range bs.length).countP fun k => x.holds (x.place k) := by
  induction bs generalizing m x with
  | nil => rfl
  | cons b bs ih =>
    rw [streamWrite_cons, ih, List.length_cons, List.range_succ_eq_map, List.countP_cons, List.countP_map, x.place_zero]
    simp only [Function.comp_def, Nat.succ_eq_add_one, Stream.advance_holds_place]

/-- A STREAM_DATA leaves every offset as it was but the places of its bytes within the window (R142). -/
theorem streamWrite_read_other {bs : List Byte} {m : List Host.Cell} {x : Stream} {a : Nat}
    (h : ∀ k < bs.length, x.holds (x.place k) = true → (a : Int) ≠ x.place k) :
    Memory.read (streamWrite bs m x).1 a = Memory.read m a := by
  induction bs generalizing m x with
  | nil => rfl
  | cons b bs ih =>
    rw [streamWrite_cons, ih, Stream.store_read_ne]
    · rw [← x.place_zero]; exact h 0 (Nat.succ_pos _)
    · intro k hk hin
      rw [Stream.advance_holds_place] at hin
      rw [Stream.advance_place (.inl (Stream.holds_bounds hin))]
      exact h (k + 1) (Nat.succ_lt_succ hk) hin

/-- Byte `k` of a STREAM_DATA stands at its place when that lies within the window (R142). -/
theorem streamWrite_read {bs : List Byte} {m : List Host.Cell} {x : Stream} {k : Nat} (hm : Memory.wf m = true)
    (hk : k < bs.length) (hin : x.holds (x.place k) = true) :
    Memory.read (streamWrite bs m x).1 (x.place k).toNat = bs.getD k 0 := by
  induction bs generalizing m x k with
  | nil => exact absurd hk (Nat.not_lt_zero k)
  | cons b bs ih =>
    rw [streamWrite_cons]
    cases k with
    | zero =>
      have hplace := Stream.holds_bounds hin
      rw [streamWrite_read_other]
      · rw [x.place_zero] at hin ⊢
        rw [Stream.store, if_pos hin]
        exact Memory.read_write_same hm
      · intro j _ hj heq
        rw [Stream.advance_holds_place] at hj
        rw [Stream.advance_place (.inl (Stream.holds_bounds hj)), Int.toNat_of_nonneg hplace.1] at heq
        exact Nat.succ_ne_zero j (x.place_injective heq).symm
    | succ k =>
      rw [← Stream.advance_place (.inl (Stream.holds_bounds hin))]
      rw [← Stream.advance_holds_place] at hin
      exact ih (x.store_wf b hm) (Nat.lt_of_succ_lt_succ hk) hin

/-! ### STREAM_DATA -/

theorem exec_streamData (p : Port) (tag : Byte) (bs : List Byte) (s : State) : exec (.streamData p tag bs) s =
    .next (takeRequest .streamData p tag ((formStreamData bs).map (streamDataBlock p)) s) := rfl

section
variable {s : State} {p : Port} {bs : List Byte}

theorem streamDataBlock_none (h : s.stream p = none) : streamDataBlock p bs s = (s, .bare .badState) := by
  simp only [streamDataBlock, h]

variable {x : Stream} (h : s.stream p = some x)
include h

theorem streamDataBlock_read (hx : x.state = .read) : streamDataBlock p bs s = (s.setStream p none, .bare .badState) := by
  simp only [streamDataBlock, h, hx]

theorem streamDataBlock_broken (hx : x.state = .broken) :
    streamDataBlock p bs s = (s.setStream p none, .bare .windowRevoked) := by
  simp only [streamDataBlock, h, hx]

theorem streamDataBlock_write (hx : x.state = .write) : streamDataBlock p bs s =
    (({ s with bulk := (streamWrite bs s.bulk x).1 } : State).setStream p (some (x.moved bs.length)),
      .now .ok (.streamData ((List.range bs.length).countP fun k => x.holds (x.place k))
        (bs.length - (List.range bs.length).countP fun k => x.holds (x.place k)) (x.moved bs.length).cursor)) := by
  simp only [streamDataBlock, h, hx]
  rw [streamWrite_stream, streamWrite_count]

end

theorem EqualButLine.bulk {u t : State} {p : Port} (h : EqualButLine p u t) : t.bulk = u.bulk := by
  rw [h.lines.1]

/-- Settles O23: BAD_REQUEST by the number of bytes, then by the stream's state; in WRITE each byte at its place. -/
theorem streamDataWritesWithinTheWindow : Obligations.StreamDataWritesWithinTheWindow := by
  unfold Obligations.StreamDataWritesWithinTheWindow
  intro s p tag data h hlen hlen' cmd
  have hg : s.gate p .streamData = none := State.gate_serves _ h rfl
  have hcmd : exec cmd s = .next (takeRequest .streamData p tag (some (streamDataBlock p data)) s) := by
    rw [exec_streamData, formStreamData, if_pos ⟨hlen, hlen'⟩]; rfl
  have hstream {y : Option Stream} (hy : s.stream p = y) : (s.noted p).stream p = y := by rwa [State.noted_stream]
  refine ⟨fun bs hbs => ⟨takeRequest .streamData p tag none s, ?_, ?_⟩, fun hnone => ⟨_, hcmd, ?_⟩,
    fun x hx hread => ⟨_, hcmd, ?_⟩, fun x hx hbroken => ⟨_, hcmd, ?_⟩, fun x hm hx hwrite => ?_⟩
  · rw [exec_streamData, formStreamData, if_neg (by omega)]; rfl
  · exact takeRequest_badRequest .streamData tag h.1
  · exact takeRequest_beside_kept (k := .streamData) rfl (Beside.refl p) h.1 hg (streamDataBlock_none (hstream hnone))
  · exact takeRequest_beside_kept (k := .streamData) rfl (Beside.setStream p none) h.1 hg
      (streamDataBlock_read (hstream hx) hread)
  · exact takeRequest_beside_kept (k := .streamData) rfl (Beside.setStream p none) h.1 hg
      (streamDataBlock_broken (hstream hx) hbroken)
  · intro place inside cursor written
    have hline := takeRequest_beside_kept (k := .streamData) (tag := tag) rfl
      ((Beside.withBulk p (streamWrite data s.bulk x).1).trans (Beside.setStream p (some (x.moved data.length))))
      h.1 hg (streamDataBlock_write (hstream hx) hwrite)
    have hbulk := hline.bulk
    refine ⟨_, hcmd, ?_, fun k hk hin => ?_, fun a ha => ?_⟩
    · rw [hbulk]; exact hline
    · rw [hbulk]; exact streamWrite_read hm hk hin
    · rw [hbulk]; exact streamWrite_read_other ha

/-! ### The bytes of a STREAM_READ -/

/-- The bytes between the cursor and the end of the window, none once the cursor has left it (R143). -/
theorem Stream.remaining_eq (x : Stream) : x.remaining =
    if (x.base.val : Int) ≤ x.cursor ∧ x.cursor ≤ x.limit.val then
      match x.order with
      | .ascending => ((x.limit.val : Int) - x.cursor + 1).toNat
      | .descending => (x.cursor - (x.base.val : Int) + 1).toNat
    else 0 :=
  if_congr (by rw [Stream.within_eq, Stream.holds_iff]) rfl rfl

theorem Stream.holds_of_remaining {x : Stream} {n : Nat} (h : n + 1 ≤ x.remaining) : x.holds x.cursor = true := by
  rw [Stream.remaining, Stream.within_eq] at h
  split at h
  · assumption
  · omega

/-- From within the window, a step takes the cursor to the next place. -/
theorem Stream.advance_of_holds {x : Stream} (h : x.holds x.cursor = true) : x.advance = { x with cursor := x.place 1 } := by
  have hbounds := Stream.holds_bounds h
  cases ho : x.order with
  | ascending => simp only [Stream.advance, Stream.place, ho, if_pos hbounds.2, Nat.cast_one]
  | descending =>
    have hlow : -1 < x.cursor := by omega
    simp only [Stream.advance, Stream.place, ho, if_pos hlow, Nat.cast_one]

/-- A step leaves one byte fewer remaining. -/
theorem Stream.remaining_advance {x : Stream} {n : Nat} (h : n + 1 ≤ x.remaining) : n ≤ x.advance.remaining := by
  rw [Stream.advance_of_holds (Stream.holds_of_remaining h)]
  obtain ⟨_, _, base, limit, order, cursor⟩ := x
  rw [Stream.remaining_eq] at h ⊢
  cases order <;> simp only [Stream.place, Nat.cast_one] at h ⊢ <;> split_ifs at h ⊢ <;> omega

theorem Stream.place_succ (x : Stream) (k : Nat) : { x with cursor := x.place 1 }.place k = x.place (k + 1) := by
  obtain ⟨_, _, _, _, order, _⟩ := x
  cases order <;> simp only [Stream.place] <;> omega

/-- As many bytes as remain are read from their places, one after the other (R143). -/
theorem streamFetch_eq (m : List Host.Cell) {n : Nat} {x : Stream} (h : n ≤ x.remaining) :
    streamFetch m n x =
      ((List.range n).map fun k => Memory.read m (x.place k).toNat, { x with cursor := x.place n }) := by
  induction n generalizing x with
  | zero => rw [x.place_zero]; rfl
  | succ n ih =>
    rw [streamFetch, ih (Stream.remaining_advance h), Stream.advance_of_holds (Stream.holds_of_remaining h),
      List.range_succ_eq_map, List.map_cons, List.map_map, x.place_zero]
    simp only [Stream.place_succ, Function.comp_def, Nat.succ_eq_add_one]

/-! ### STREAM_READ -/

theorem exec_streamRead (p : Port) (tag : Byte) (n : Nat) (s : State) : exec (.streamRead p tag (.fields n)) s =
    .next (takeRequest .streamRead p tag ((range? 1 512 n).map (streamReadBlock p)) s) := rfl

section
variable {s : State} {p : Port} {count : Nat}

theorem streamReadBlock_none (h : s.stream p = none) : streamReadBlock p count s = (s, .bare .badState) := by
  simp only [streamReadBlock, h]

variable {x : Stream} (h : s.stream p = some x)
include h

theorem streamReadBlock_write (hx : x.state = .write) :
    streamReadBlock p count s = (s.setStream p none, .bare .badState) := by
  simp only [streamReadBlock, h, hx]

theorem streamReadBlock_broken (hx : x.state = .broken) :
    streamReadBlock p count s = (s.setStream p none, .bare .windowRevoked) := by
  simp only [streamReadBlock, h, hx]

theorem streamReadBlock_read (hx : x.state = .read) : streamReadBlock p count s =
    (s.setStream p (some { x with cursor := x.place (min count x.remaining) }),
      .now .ok (.streamRead ((List.range (min count x.remaining)).map fun k => Memory.read s.bulk (x.place k).toNat)
        (x.place (min count x.remaining)))) := by
  simp only [streamReadBlock, h, hx, streamFetch_eq s.bulk (Nat.min_le_right count x.remaining)]

end

/-- Settles O24: BAD_REQUEST by the count, then by the stream's state; in READ the bytes up to the window's end. -/
theorem streamReadReturnsTheWindow : Obligations.StreamReadReturnsTheWindow := by
  unfold Obligations.StreamReadReturnsTheWindow
  intro s p tag count h hcount hcount' cmd
  have hg : s.gate p .streamRead = none := State.gate_serves _ h rfl
  have hcmd : exec cmd s = .next (takeRequest .streamRead p tag (some (streamReadBlock p count)) s) := by
    rw [exec_streamRead, range?_of_le hcount hcount']; rfl
  have hstream {y : Option Stream} (hy : s.stream p = y) : (s.noted p).stream p = y := by rwa [State.noted_stream]
  refine ⟨fun n hn => ⟨takeRequest .streamRead p tag none s, ?_, ?_⟩, fun hnone => ⟨_, hcmd, ?_⟩,
    fun x hx hwrite => ⟨_, hcmd, ?_⟩, fun x hx hbroken => ⟨_, hcmd, ?_⟩, fun x hx hread => ?_⟩
  · rw [exec_streamRead, range?, if_neg (by omega)]; rfl
  · exact takeRequest_badRequest .streamRead tag h.1
  · exact takeRequest_beside_kept (k := .streamRead) rfl (Beside.refl p) h.1 hg (streamReadBlock_none (hstream hnone))
  · exact takeRequest_beside_kept (k := .streamRead) rfl (Beside.setStream p none) h.1 hg
      (streamReadBlock_write (hstream hx) hwrite)
  · exact takeRequest_beside_kept (k := .streamRead) rfl (Beside.setStream p none) h.1 hg
      (streamReadBlock_broken (hstream hx) hbroken)
  · intro remaining n place
    have hremaining : remaining = x.remaining := x.remaining_eq.symm
    refine ⟨_, hcmd, ?_⟩
    have block := streamReadBlock_read (count := count) (hstream hx) hread
    rw [← hremaining] at block
    exact takeRequest_beside_kept (k := .streamRead) rfl (Beside.setStream p _) h.1 hg block

end Sys2Proof.Machine

/-! PROOFS. The agent port (09): an inbound frame error (R167), and the frame the arbiter fixes at the assertion of SEL (R170).
For each, first the model's operation as one change of the port's controller, then the statement it settles. -/

namespace Sys2Proof.Machine

/-! ### A change of a port's controller -/

theorem State.onCtl_congr (s : State) (p : Port) {f g : PortController → PortController} (h : f (s.ctl p) = g (s.ctl p)) :
    s.onCtl p f = s.onCtl p g :=
  State.onCol_congr s p (congrArg (fun x => { s.col p with port := x }) h)

@[simp] theorem State.onCtl_onCtl (s : State) (p : Port) (f g : PortController → PortController) :
    (s.onCtl p f).onCtl p g = s.onCtl p fun c => g (f c) :=
  State.onCol_onCol s p _ _

/-- A change of a port's controller that keeps its responses leaves what drives every line (R172). -/
theorem State.onCtl_atnDrive (s : State) (p : Port) {f : PortController → PortController}
    (h : (f (s.ctl p)).responses = (s.ctl p).responses) (q : Port) : (s.onCtl p f).atnDrive q = s.atnDrive q := by
  by_cases hq : q = p
  · subst hq
    have hwaiting : ((s.onCtl q f).col q).waiting = (s.col q).waiting := by
      rw [State.onCtl, State.onCol_col_same]
      exact congrArg (fun l => !l.isEmpty || decide ((s.engine q).state = .presented)) h
    apply State.atnDrive_congr <;> simp [hwaiting]
  · exact State.drive_onCol s p _ q hq

/-! ### An inbound frame error -/

theorem exec_inboundFrameError (p : Port) (tag : Option Byte) (s : State) :
    exec (.inboundFrameError p tag) s = .next (takeFrame p (fun u => u.frameFailed p tag) s) := rfl

@[simp] theorem State.count_responses (s : State) (p : Port) (f : Counters → Counters) :
    ((s.count p f).ctl p).responses = (s.ctl p).responses := by
  rw [State.count, State.onCtl_ctl_same]

/-- A frame error with room in the queue is counted and answered (R167). -/
theorem State.frameFailed_answered {s : State} {p : Port} (tag : Option Byte) (h : (s.ctl p).responses.length < 4) :
    s.frameFailed p tag = s.onCtl p fun c =>
      { c with
        counters := c.counters.addFrameError
        responses := c.responses ++ [{ tag := tag.getD 0, kind := 0, status := .frameError, result := .none }] } := by
  simp only [State.frameFailed, State.count_responses, Config.responseQueue, if_pos h]
  rw [State.respond_eq _ _ _ _ (by rwa [State.count_responses]), State.count, State.onCtl_onCtl]

/-- A frame error at a full queue is counted, and counted as an overrun (R167, R169). -/
theorem State.frameFailed_lost {s : State} {p : Port} (tag : Option Byte) (h : ¬ (s.ctl p).responses.length < 4) :
    s.frameFailed p tag = s.onCtl p fun c =>
      { c with
        counters := c.counters.addFrameError.addOverrun
        overrun := if c.overrun < 255 then c.overrun + 1 else c.overrun } := by
  simp only [State.frameFailed, State.count_responses, Config.responseQueue, if_neg h]
  simp only [State.loseRequest, State.count, State.onCtl_onCtl]
  rfl

/-- A frame error as one change of the port's controller, whatever its queue holds. -/
theorem State.frameFailed_eq (s : State) (p : Port) (tag : Option Byte) :
    s.frameFailed p tag = s.onCtl p fun c =>
      if c.responses.length < 4 then
        { c with
          counters := c.counters.addFrameError
          responses := c.responses ++ [{ tag := tag.getD 0, kind := 0, status := .frameError, result := .none }] }
      else
        { c with
          counters := c.counters.addFrameError.addOverrun
          overrun := if c.overrun < 255 then c.overrun + 1 else c.overrun } := by
  by_cases h : (s.ctl p).responses.length < 4
  · rw [State.frameFailed_answered tag h]; exact State.onCtl_congr s p (if_pos h).symm
  · rw [State.frameFailed_lost tag h]; exact State.onCtl_congr s p (if_neg h).symm

/-- Settles O40: while STARTING the frame ends and no more; in a state that takes frames the error is one change of the
port's controller, and the line of that port follows. -/
theorem frameErrorIsAnswered : Obligations.FrameErrorIsAnswered := by
  unfold Obligations.FrameErrorIsAnswered
  intro s p tag
  refine ⟨fun hrstn hstarting => ?_, fun htakes => ⟨_, exec_inboundFrameError p tag s, ?_⟩⟩
  · rw [exec_inboundFrameError, takeFrame_starting _ hrstn hstarting]
  · rw [takeFrame_taken _ htakes, State.spend_eq, State.frameFailed_eq, State.onCtl_onCtl]
    exact followAtn_line s _ p (State.drive_onCol s p _)

/-! ### The arbiter -/

/-- SEL asserted with RSTN high: the responses and the deliveries that wait stay, so no line moves (R172). -/
theorem exec_transactionStart {s : State} {p : Port} (hrstn : s.rstnLow = false) (hsel : (s.ctl p).sel = false) :
    exec (.transactionStart p) s = .next (s.startTransaction p) := by
  have hline : followAtn s (s.startTransaction p) = s.startTransaction p :=
    followAtn_same s _ (State.onCtl_atnDrive s p rfl)
  calc exec (.transactionStart p) s = execTransactionStart p s := rfl
    _ = .next (s.startTransaction p) := by simp [execTransactionStart, hrstn, hsel, hline]

/-- The kind the arbiter fixes while RUNNING, by what waits (R170). -/
theorem State.arbitrate_running {s : State} (p : Port) (h : s.controller = .running) :
    s.arbitrate p =
      if (s.engine p).state = .presented then
        if (s.ctl p).responses = [] then some .deliver else some (s.ctl p).turn
      else if (s.ctl p).responses = [] then none else some .response := by
  cases hr : (s.ctl p).responses <;> by_cases he : (s.engine p).state = .presented <;>
    simp [State.arbitrate, h, hr, he]

theorem State.outboundFrame_response {s : State} {p : Port} {r : Response} {rs : List Response}
    (h : (s.ctl p).responses = r :: rs) : s.outboundFrame p (some .response) =
      { carried := .response (s.ctl p).overrun, bytes := r.frame (s.ctl p).overrun, progress := 0 } := by
  simp only [State.outboundFrame, h]

theorem State.outboundFrame_deliver {s : State} {p : Port} {f : DeliverFrame} (h : (s.engine p).frame = some f) :
    s.outboundFrame p (some .deliver) = { carried := .deliver f.number, bytes := f.bytes, progress := 0 } := by
  simp only [State.outboundFrame, h]

/-- The IDLE frame of a RUNNING part at a port where no response waits (R164). -/
theorem State.outboundFrame_idle {s : State} {p : Port} (h : s.controller = .running) (hr : (s.ctl p).responses = []) :
    s.outboundFrame p none =
      { carried := .idle, progress := 0,
        bytes := frameBytes 0x83 0
          [1, (s.session p).state.code, byteOf (s.session p).generation, 0, (s.engine p).state.code,
            flagByte (s.session p).wakePending, byteOf (s.session p).lost] } := by
  simp only [State.outboundFrame, State.idleFrame, State.idleBody, h, hr]
  rfl

/-- Nothing waits: the turn stays (R170). -/
theorem State.startTransaction_idle {s : State} {p : Port} (h : s.arbitrate p = none) :
    s.startTransaction p = s.onCtl p fun c =>
      { c with sel := true, assembly := .searching, outbound := some (s.outboundFrame p none), turn := (s.ctl p).turn } := by
  simp only [State.startTransaction, h]
  exact State.onCtl_congr s p rfl

/-- A frame of kind `k` is fixed: the turn passes to the other kind (R170). -/
theorem State.startTransaction_kind {s : State} {p : Port} {k : Turn} (h : s.arbitrate p = some k) :
    s.startTransaction p = s.onCtl p fun c =>
      { c with sel := true, assembly := .searching, outbound := some (s.outboundFrame p (some k)), turn := k.other } := by
  simp only [State.startTransaction, h]

section
variable {s : State} {p : Port} {r : Response} {rs : List Response} {f : DeliverFrame}

theorem State.startTransaction_response (h : s.arbitrate p = some .response) (hr : (s.ctl p).responses = r :: rs) :
    s.startTransaction p = s.onCtl p fun c =>
      { c with
        sel := true, assembly := .searching, turn := .deliver
        outbound := some
          { carried := .response (s.ctl p).overrun, bytes := r.frame (s.ctl p).overrun, progress := 0 } } := by
  rw [State.startTransaction_kind h, State.outboundFrame_response hr]; rfl

theorem State.startTransaction_deliver (h : s.arbitrate p = some .deliver) (hf : (s.engine p).frame = some f) :
    s.startTransaction p = s.onCtl p fun c =>
      { c with
        sel := true, assembly := .searching, turn := .response
        outbound := some { carried := .deliver f.number, bytes := f.bytes, progress := 0 } } := by
  rw [State.startTransaction_kind h, State.outboundFrame_deliver hf]; rfl

end

/-- Settles O41, by what waits: nothing, responses alone, a delivery alone, or both, where the turn decides. -/
theorem arbiterFixesTheFrame : Obligations.ArbiterFixesTheFrame := by
  unfold Obligations.ArbiterFixesTheFrame
  intro s p hrstn hrun hsel _ started idle response delivery
  have hkind := State.arbitrate_running p hrun
  refine ⟨_, exec_transactionStart hrstn hsel, fun hr he => ?_, fun r rs hr he => ?_, fun f hr he hf => ?_,
    fun r rs f hr he hf => ?_⟩
  · have hnone : s.arbitrate p = none := by simp [hkind, hr, he]
    rw [State.startTransaction_idle hnone, State.outboundFrame_idle hrun hr]
  · exact State.startTransaction_response (by simp [hkind, hr, he]) hr
  · exact State.startTransaction_deliver (by simp [hkind, hr, he]) hf
  · have hturn : s.arbitrate p = some (s.ctl p).turn := by simp [hkind, hr, he]
    cases ht : (s.ctl p).turn with
    | response => exact State.startTransaction_response (hturn.trans (congrArg some ht)) hr
    | deliver => exact State.startTransaction_deliver (hturn.trans (congrArg some ht)) hf

end Sys2Proof.Machine

/-! PROOFS. The supervision requests that report or set (10): PORT_STATUS and STORE_STATUS, SET_PORT and SET_RESERVE. First
what the two reports read once the request itself is counted; then, for the two settings, their forms, and the replacement of
the configuration as a change that moves no port's controller. -/

namespace Sys2Proof.Machine

/-! ### What the reports read -/

@[simp] theorem State.taken_engine (s : State) (p q : Port) : (s.taken p).engine q = s.engine q := by
  simp [State.taken, State.noted]

/-- A request taken is counted among the frames in of its own port, and has ended its inbound frame (R159, R166). -/
theorem State.taken_ctl (s : State) (p q : Port) : (s.taken p).ctl q =
    if q = p then { s.ctl q with assembly := (s.ctl q).ended, counters := (s.ctl q).counters.addFrameIn } else s.ctl q := by
  by_cases h : q = p
  · subst h; simp [State.taken, State.noted]
  · simp [State.taken, State.noted, h]

/-- R182: of the port that asks, the request in hand shows in the frames in and in the stream it has closed, and nowhere
else; of any other port it does not show. -/
theorem State.taken_portReport (s : State) (p q : Port) : (s.taken p).portReport q =
    { s.portReport q with
      stream := if q = p then none else (s.stream q).map Stream.state
      counters := if q = p then (s.ctl q).counters.addFrameIn else (s.ctl q).counters } := by
  simp only [State.portReport, State.taken_session, State.taken_engine, State.taken_ctl, State.taken_stream]
  by_cases h : q = p
  · simp only [if_pos h]; rfl
  · simp only [if_neg h]; rfl

/-- The descriptors in use, counted agent by agent and inlet by inlet (R10). -/
theorem State.descriptors_length (s : State) : s.descriptors.length =
    ((List.finRange 8).map fun q => ((List.finRange 16).map fun i => (s.inlet q i).queue.length).sum).sum := by
  simp only [State.descriptors, Column.descriptors, Tab.cells_eq_map_get, List.length_flatMap, List.map_map]
  rfl

theorem State.taken_descriptors_length (s : State) (p : Port) :
    (s.taken p).descriptors.length = s.descriptors.length := by
  simp only [State.descriptors_length, State.taken_inlet]

/-- R183: a request in hand shows nowhere in the store's report. -/
theorem State.taken_storeReport (s : State) (p : Port) : (s.taken p).storeReport = s.storeReport := by
  simp only [State.storeReport, State.taken_descriptors_length]
  rfl

/-- R183, the three counts of records spelled out. -/
theorem State.storeReport_eq (s : State) : s.storeReport =
    { freeCells := s.store.freeCells, freeDescriptors := s.store.freeDescriptors,
      inUse := ((List.finRange 8).map fun q => ((List.finRange 16).map fun i => (s.inlet q i).queue.length).sum).sum,
      reserveCells := s.config.reserveCells, reserveDescriptors := s.config.reserveDescriptors,
      nextMessage := s.store.nextMessage, nextSerial := s.store.nextSerial, refused := s.store.refused,
      lost := s.store.lost,
      freeFamilies := (List.finRange 256).countP fun f => (s.family f).isNone,
      freeWindows := (List.finRange 32).countP fun w => (s.window w).isNone } := by
  rw [State.storeReport, State.descriptors_length, Tab.count_eq, Tab.count_eq]
  rfl

/-! ### PORT_STATUS and STORE_STATUS -/

theorem exec_portStatus (p : Port) (tag : Byte) (q : Port) (s : State) : exec (.portStatus p tag (.fields q.val)) s =
    .next (takeRequest .portStatus p tag (some (portStatusBlock q)) s) := by
  have hexec : ∀ b, exec (.portStatus p tag b) s =
      .next (takeRequest .portStatus p tag ((formOf (fin? 8) b).map portStatusBlock) s) := fun _ => rfl
  rw [hexec, formOf, fin?_val]
  rfl

theorem exec_storeStatus (p : Port) (tag : Byte) (s : State) : exec (.storeStatus p tag []) s =
    .next (takeRequest .storeStatus p tag (some (storeStatusBlock ())) s) := rfl

/-- Settles O6: each of the two answers with its report of the state in which the request has been taken. -/
theorem supervisorInspections : Obligations.SupervisorInspections := by
  unfold Obligations.SupervisorInspections
  intro s p tag h
  refine ⟨fun q => ⟨_, exec_portStatus p tag q s, ?_⟩, _, exec_storeStatus p tag s, ?_⟩
  · have block : portStatusBlock q (s.taken p) = (s.taken p, .now .ok (.portStatus ((s.taken p).portReport q))) := rfl
    rw [State.taken_portReport] at block
    exact takeRequest_answered (k := .portStatus) rfl h.1.1 (State.gate_supervised _ h) block
  · have block : storeStatusBlock () (s.taken p) = (s.taken p, .now .ok (.storeStatus (s.taken p).storeReport)) := rfl
    rw [State.taken_storeReport, State.storeReport_eq] at block
    exact takeRequest_answered (k := .storeStatus) rfl h.1.1 (State.gate_supervised _ h) block

/-! ### A replacement of the configuration -/

/-- A request answered with its state changed by `v`, which neither reads nor moves the controller of `p` but may move what
drives the line of any port: the answered state, changed as the block changes it, the lines apart. -/
theorem takeRequest_lines_closed {k : RequestKind} {s : State} {p : Port} {tag : Byte} {act : State → State × Answer}
    {st : Status} {r : Result} {v : State → State} (hk : k.keepsStream = false) (hctl : ∀ u, (v u).ctl p = u.ctl p)
    (honCtl : ∀ u g, v (u.onCtl p g) = (v u).onCtl p g) (h : s.takesRequests p) (hg : s.gate p k = none)
    (ha : act (s.taken p) = (v (s.taken p), .now st r)) :
    EqualButLines (v ((s.answer p tag k.code st r).setStream p none)) (takeRequest k p tag (some act) s) := by
  rw [State.answer_closed_eq, honCtl, takeRequest_served tag h hg (by rw [State.closeStream_closes hk]; exact ha)]
  · exact followAtn_lines ..
  · rw [hctl]; simp [State.taken, State.noted]

/-- Both reserve values replaced together (R180). -/
def State.setReserve (s : State) (cells descriptors : Nat) : State :=
  { s with config := { s.config with reserveCells := cells, reserveDescriptors := descriptors } }

theorem Beside.setReserve (p : Port) (cells descriptors : Nat) : Beside p fun u => u.setReserve cells descriptors :=
  ⟨fun _ => rfl, fun _ _ => rfl, fun _ _ _ => rfl⟩

/-! ### SET_PORT -/

theorem atnMode?_isSome (x : Nat) : (atnMode? x).isSome = within 0 1 x := by
  match x with
  | 0 | 1 => rfl
  | n + 2 => simp [atnMode?, within]

theorem formSetPort_isSome (f : SetPortFields) : (formSetPort f).isSome =
    (within 0 7 f.port && within 1 255 f.timeout && within 0 7 f.retryLimit && within 0 1 f.atnMode
      && within 0 262143 f.base && within 0 262144 f.length && decide (f.base + f.length ≤ 262144)) := by
  rw [← fin?_isSome, ← range?_isSome 1, ← range?_isSome 0 7 f.retryLimit, ← atnMode?_isSome, ← range?_isSome 0 262143,
    ← range?_isSome 0 262144]
  simp only [Bool.and_assoc]
  refine isSome_bind_of_forall fun _ => isSome_bind_of_forall fun _ => isSome_bind_of_forall fun _ =>
    isSome_bind_of_forall fun _ => isSome_bind_of_forall fun _ => isSome_bind_of_forall fun _ => ?_
  split <;> simp [*]

theorem formSetPort_fields (q : Port) (x : PortSettings) {mode : Nat} (hmode : atnMode? mode = some x.atnMode)
    (htimeout : 1 ≤ x.timeout) (htimeout' : x.timeout ≤ 255) (hretry : x.retryLimit ≤ 7)
    (hbase : x.partitionBase ≤ 262143) (hsum : x.partitionBase + x.partitionLength ≤ 262144) :
    formSetPort
      { port := q.val, timeout := x.timeout, retryLimit := x.retryLimit, atnMode := mode, base := x.partitionBase,
        length := x.partitionLength } = some { port := q, settings := x } := by
  have hlength : x.partitionLength ≤ 262144 := by omega
  simp [formSetPort, fin?_val, range?_of_le htimeout htimeout', range?_of_le (Nat.zero_le _) hretry, hmode,
    range?_of_le (Nat.zero_le _) hbase, range?_of_le (Nat.zero_le _) hlength, hsum]

theorem exec_setPort (p : Port) (tag : Byte) (b : Body SetPortFields) (s : State) : exec (.setPort p tag b) s =
    .next (takeRequest .setPort p tag ((formOf formSetPort b).map setPortBlock) s) := rfl

theorem exec_setPort_fields (p : Port) (tag : Byte) (s : State) {f : SetPortFields} {o : SetPortOp}
    (h : formSetPort f = some o) : exec (.setPort p tag (.fields f)) s =
      .next (takeRequest .setPort p tag (some (setPortBlock o)) s) := by
  rw [exec_setPort, formOf, h]
  rfl

theorem State.setSettings_settings_same (s : State) (q : Port) (x : PortSettings) :
    (s.setSettings q x).settings q = x :=
  Tab.get_put_same ..

/-- The settings as they now stand are those that the request carries (R179). -/
theorem setPortBlock_eq (q : Port) (x : PortSettings) (s : State) :
    setPortBlock { port := q, settings := x } s = (s.setSettings q x, .now .ok (.setPort x)) := by
  rw [setPortBlock, State.setSettings_settings_same]

/-! ### SET_RESERVE -/

theorem formSetReserve_isSome (f : SetReserveFields) :
    (formSetReserve f).isSome = (within 0 512 f.cells && within 0 64 f.descriptors) := by
  rw [← range?_isSome, ← range?_isSome]
  exact isSome_bind_of_forall fun _ => isSome_bind_some ..

theorem formSetReserve_fields {cells descriptors : Nat} (hcells : cells ≤ 512) (hdescriptors : descriptors ≤ 64) :
    formSetReserve { cells := cells, descriptors := descriptors } =
      some { cells := cells, descriptors := descriptors } := by
  simp [formSetReserve, range?_of_le (Nat.zero_le _) hcells, range?_of_le (Nat.zero_le _) hdescriptors]

theorem exec_setReserve (p : Port) (tag : Byte) (b : Body SetReserveFields) (s : State) :
    exec (.setReserve p tag b) s =
      .next (takeRequest .setReserve p tag ((formOf formSetReserve b).map setReserveBlock) s) := rfl

theorem exec_setReserve_fields (p : Port) (tag : Byte) (s : State) {f o : SetReserveFields}
    (h : formSetReserve f = some o) : exec (.setReserve p tag (.fields f)) s =
      .next (takeRequest .setReserve p tag (some (setReserveBlock o)) s) := by
  rw [exec_setReserve, formOf, h]
  rfl

/-- The free counts answered are those before the request, which taking it leaves (R180). -/
theorem setReserveBlock_taken (s : State) (p : Port) (o : SetReserveFields) :
    setReserveBlock o (s.taken p) = ((s.taken p).setReserve o.cells o.descriptors,
      .now .ok (.setReserve o.cells o.descriptors s.store.freeCells s.store.freeDescriptors)) := rfl

/-! ### The settings replaced -/

/-- Settles O26: the two forms read in range, and then each replacement; a new mode may move any port's line, the reserve
none. -/
theorem settingsAreReplaced : Obligations.SettingsAreReplaced := by
  unfold Obligations.SettingsAreReplaced
  intro s p tag h
  have hg (k : RequestKind) : s.gate p k = none := State.gate_supervised k h
  refine ⟨fun q x htimeout htimeout' hretry hbase hsum => ⟨_, exec_setPort_fields p tag s
      (formSetPort_fields q x ?_ htimeout htimeout' hretry hbase hsum), ?_⟩,
    fun b hb => turnsAway_of_malformed (k := .setPort) rfl h.1.1 ?_,
    fun b hb => turnsAway_of_malformed (k := .setReserve) rfl h.1.1 ?_,
    fun cells descriptors hcells hdescriptors => ⟨_, exec_setReserve_fields p tag s
      (formSetReserve_fields hcells hdescriptors), ?_⟩⟩
  · cases x.atnMode <;> rfl
  · exact takeRequest_lines_closed (k := .setPort) (v := fun u => u.setSettings q x) rfl (fun _ => rfl) (fun _ _ => rfl)
      h.1.1 (hg _) (setPortBlock_eq q x _)
  · rw [exec_setPort, formOf_eq_none formSetPort_isSome hb]; rfl
  · rw [exec_setReserve, formOf_eq_none formSetReserve_isSome hb]; rfl
  · exact takeRequest_beside_closed (k := .setReserve) rfl (Beside.setReserve p cells descriptors) h.1.1 (hg _)
      (setReserveBlock_taken s p _)

end Sys2Proof.Machine

/-! PROOFS. The path of a request (08), said once for all 28: the block of a command, which is absent exactly when the request is
not well made, and its run as one `takeRequest`. From these the overrun, the form gate, the session gate and the privilege gate,
and what a frame does while STARTING or with RSTN low. -/

namespace Sys2Proof.Machine

/-! ### The block of a request -/

/-- What the owning block of a well-made request does (R149); absent for a request that is not well made, and for a command that
is no request. -/
def requestBlock : Instr → Option (State → State × Answer)
  | .hello p tag b => (formOf formHello b).map (helloBlock p tag)
  | .bye p tag b => (formEmpty b).map (byeBlock p tag)
  | .dormant p _ b => (formEmpty b).map (dormantBlock p)
  | .resume p _ b => (formEmpty b).map (resumeBlock p)
  | .status p _ b => (formEmpty b).map (statusBlock p)
  | .createRoute p _ b => (formOf formCreateRoute b).map (createRouteBlock p)
  | .dropRoute p _ b => (formOf routeSlot? b).map (dropRouteBlock p)
  | .revokeFamily p _ b => (formOf (fin? 256) b).map (revokeFamilyBlock p)
  | .routeInfo p _ b => (formOf routeSlot? b).map (routeInfoBlock p)
  | .openInlet p _ b => (formOf formOpenInlet b).map (openInletBlock p)
  | .closeInlet p _ b => (formOf formCloseInlet b).map (closeInletBlock p)
  | .setInlet p _ b => (formOf formSetInlet b).map (setInletBlock p)
  | .setLane p _ b => (formOf formSetLane b).map (setLaneBlock p)
  | .receive p _ b => (formOf formReceive b).map (receiveBlock p)
  | .inletStatus p _ b => (formOf (fin? 16) b).map (inletStatusBlock p)
  | .send p _ b => (formOf formSend b).map (sendBlock p)
  | .createWindow p _ b => (formOf formCreateWindow b).map (createWindowBlock p)
  | .closeWindow p _ b => (formOf (fin? 8) b).map (closeWindowBlock p)
  | .dropGrant p _ b => (formOf (fin? 8) b).map (dropGrantBlock p)
  | .streamOpen p _ b => (formOf formStreamOpen b).map (streamOpenBlock p)
  | .streamData p _ b => (formStreamData b).map (streamDataBlock p)
  | .streamRead p _ b => (formOf formStreamRead b).map (streamReadBlock p)
  | .evict _ _ b => (formOf formEvict b).map evictBlock
  | .setPort _ _ b => (formOf formSetPort b).map setPortBlock
  | .setReserve _ _ b => (formOf formSetReserve b).map setReserveBlock
  | .portStatus _ _ b => (formOf (fin? 8) b).map portStatusBlock
  | .storeStatus _ _ b => (formEmpty b).map storeStatusBlock
  | .systemReset _ tag b => (formEmpty b).map (systemResetBlock tag)
  | .unknownRequestKind _ _ _ _ | .ack _ _ | .nak _ _ | .inboundFrameError _ _ | .transactionStart _ | .transactionEnd _
  | .frameShiftedOut _ | .timerExpiry _ | .atnPulseEnd _ | .deliveryChoice _ | .routeTableSweep _ | .grantTableSweep _
  | .inletTableSweep _ | .sweepCompletion _ | .powerOn | .resetPinAssert | .resetPinRelease | .startupCompletion _
  | .byteReceived _ _ => none

/-- Every request is taken, gated and handed to its block in one way (R149). -/
theorem exec_request {i : Instr} {k : RequestKind} {p : Port} {tag : Byte} (hk : requestKind i = some k)
    (hheader : requestHeader i = some (p, tag)) (s : State) :
    exec i s = .next (takeRequest k p tag (requestBlock i) s) := by
  cases i <;> cases hk <;> cases hheader <;> rfl

/-! ### The form gate: a block stands exactly for what is well made -/

theorem formOf_isSome {α β : Type} {form : α → Option β} {good : α → Bool} (h : ∀ f, (form f).isSome = good f) (b : Body α) :
    (formOf form b).isSome = b.good good := by
  cases b with
  | fields f => exact h f
  | misshapen bs => rfl

theorem formEmpty_isSome (bs : List Byte) : (formEmpty bs).isSome = decide (bs = []) := by
  cases bs <;> rfl

theorem formHello_isSome (f : HelloFields) : (formHello f).isSome = decide (f.name.length = 16) := by
  by_cases h : f.name.length = 16 <;> simp [formHello, h]

/-- A number read one below itself, as route slots are, is in range from 1 on. -/
theorem routeSlot?_isSome (n : Nat) : (routeSlot? n).isSome = within 1 63 n := by
  cases n with
  | zero => rfl
  | succ n => simp [routeSlot?, fin?_isSome 62, within, Nat.lt_succ_iff]

theorem formEvict_isSome (n : Nat) : (formEvict n).isSome = within 1 7 n := by
  cases n with
  | zero => rfl
  | succ n => simp [formEvict, fin?_isSome 7, within]

theorem closeMode?_isSome (n : Nat) : (closeMode? n).isSome = within 0 1 n := by
  match n with
  | 0 | 1 => rfl
  | n + 2 => simp [closeMode?, within]

theorem formCloseInlet_isSome (f : CloseInletFields) :
    (formCloseInlet f).isSome = (within 0 15 f.inlet && within 0 1 f.mode) := by
  rw [← fin?_isSome, ← closeMode?_isSome]
  exact isSome_bind_of_forall fun _ => isSome_bind_some ..

theorem formStreamData_isSome (bs : List Byte) : (formStreamData bs).isSome = within 1 512 bs.length := by
  rw [formStreamData, within, ← Bool.decide_and]
  split <;> simp [*]

theorem specMode?_isSome (n : Nat) : (specMode? n).isSome = within 0 1 n := by
  match n with
  | 0 | 1 => rfl
  | n + 2 => simp [specMode?, within]

theorem grantRights?_isSome (x : Nat) : (grantRights? x).isSome = within 0 3 x := by
  by_cases h : x < 4
  · simp [grantRights?, within, h, Nat.le_of_lt_succ h]
  · simp [grantRights?, within, h, Nat.lt_of_succ_le (Nat.le_of_not_lt h)]

theorem within_zero_zero (n : Nat) : within 0 0 n = decide (n = 0) := by
  cases n <;> rfl

/-- R62, R63: a ROUTE spec, a GRANT spec, or neither. -/
theorem formSpec_isSome (f : SpecFields) : (formSpec f).isSome = f.good := by
  obtain ⟨kind, slot, mode, rights, quota⟩ := f
  match kind with
  | 0 =>
    simp only [SpecFields.good, decide_true, Bool.true_and, Bool.false_and, Bool.or_false, decide_false, zero_ne_one]
    rw [← routeSlot?_isSome, ← specMode?_isSome, ← routeRights?_isSome, ← range?_isSome 0 32]
    simp only [Bool.and_assoc]
    exact isSome_bind_of_forall fun _ => isSome_bind_of_forall fun _ => isSome_bind_of_forall fun _ => isSome_bind_some ..
  | 1 =>
    simp only [SpecFields.good, decide_true, Bool.true_and, Bool.false_and, Bool.false_or, one_ne_zero, decide_false]
    rw [← fin?_isSome, ← specMode?_isSome, ← grantRights?_isSome, ← within_zero_zero, ← range?_isSome]
    simp only [Bool.and_assoc]
    exact isSome_bind_of_forall fun _ => isSome_bind_of_forall fun _ => isSome_bind_of_forall fun _ => isSome_bind_some ..
  | n + 2 => simp [formSpec, SpecFields.good]

theorem formSpecs_isSome (fs : List SpecFields) : (formSpecs fs).isSome = fs.all SpecFields.good := by
  induction fs with
  | nil => rfl
  | cons f fs ih =>
    rw [List.all_cons, ← formSpec_isSome, ← ih]
    exact isSome_bind_of_forall fun _ => isSome_bind_some ..

/-- As many specs are read as the SEND names. -/
theorem formSpecs_length {fs : List SpecFields} {xs : List Spec} (h : formSpecs fs = some xs) : xs.length = fs.length := by
  induction fs generalizing xs with
  | nil => cases h; rfl
  | cons f fs ih =>
    obtain ⟨y, _, hy⟩ := Option.bind_eq_some_iff.mp h
    obtain ⟨ys, hys, hxs⟩ := Option.bind_eq_some_iff.mp hy
    cases hxs
    simp [ih hys]


/-- The checks of a SEND's form that follow its reply inlet (R63): the specs, how many enclosures they make with the minted one,
and the body's length. -/
theorem formSend_tail_isSome (f : SendFields) (slot : Fin 63) (ret : Bool) (reply : Option (Fin 16)) (minted : Nat) :
    ((formSpecs f.specs).bind fun specs => (range? 0 2 (specs.length + minted)).bind fun _ =>
      (range? 0 Config.bodyMax f.body.length).bind fun _ =>
        if f.bodyLength = f.body.length then some ({ slot, ret, reply, specs, body := f.body } : SendOp) else none).isSome =
    (f.specs.all SpecFields.good && within 0 2 (f.specs.length + minted) && within 0 512 f.body.length
      && decide (f.bodyLength = f.body.length)) := by
  rw [← formSpecs_isSome]
  cases hspecs : formSpecs f.specs with
  | none => rfl
  | some specs =>
    rw [← formSpecs_length hspecs, ← range?_isSome, ← range?_isSome, Bool.and_assoc, Bool.and_assoc, Option.bind_some,
      Option.isSome_some, Bool.true_and]
    refine isSome_bind_of_forall fun _ => isSome_bind_of_forall fun _ => ?_
    split <;> simp [*]

theorem formSend_isSome (f : SendFields) : (formSend f).isSome = f.good := by
  have hslot := routeSlot?_isSome f.slot
  have hret := flag?_isSome f.ret
  have htail := formSend_tail_isSome f
  unfold SendFields.good
  rw [← hslot, ← hret]
  simp only [Bool.and_assoc] at htail ⊢
  refine isSome_bind_of_forall fun slot => isSome_bind_of_forall fun ret => ?_
  obtain ⟨_, _, mint, reply, _, _, _⟩ := f
  match mint, reply with
  | 0, none => exact htail slot ret none 0
  | 0, some n => rfl
  | 1, none => rfl
  | 1, some n =>
    have hreply := fin?_isSome 15 n
    simp only [decide_true, Bool.true_and, ← hreply]
    cases hn : fin? 16 n with
    | none => simp [flag?, formReply, hn]
    | some i => simpa [flag?, formReply, hn] using htail slot ret (some i) 1
  | m + 2, none => simp [flag?]
  | m + 2, some n => simp [flag?]

/-- R150: a request has a block exactly when it is well made. -/
theorem requestBlock_isSome {i : Instr} {k : RequestKind} (hk : requestKind i = some k) :
    (requestBlock i).isSome = i.wellMade := by
  cases i <;> cases hk
  all_goals simp only [requestBlock, Option.isSome_map, Instr.wellMade]
  case hello => exact formOf_isSome formHello_isSome _
  case createRoute => exact formOf_isSome formCreateRoute_isSome _
  case dropRoute => exact formOf_isSome routeSlot?_isSome _
  case revokeFamily => exact formOf_isSome (fin?_isSome 255) _
  case routeInfo => exact formOf_isSome routeSlot?_isSome _
  case openInlet => exact formOf_isSome formOpenInlet_isSome _
  case closeInlet => exact formOf_isSome formCloseInlet_isSome _
  case setInlet => exact formOf_isSome formSetInlet_isSome _
  case setLane => exact formOf_isSome formSetLane_isSome _
  case receive => exact formOf_isSome formReceive_isSome _
  case inletStatus => exact formOf_isSome (fin?_isSome 15) _
  case send => exact formOf_isSome formSend_isSome _
  case createWindow => exact formOf_isSome formCreateWindow_isSome _
  case closeWindow => exact formOf_isSome (fin?_isSome 7) _
  case dropGrant => exact formOf_isSome (fin?_isSome 7) _
  case streamOpen => exact formOf_isSome formStreamOpen_isSome _
  case streamData => exact formStreamData_isSome _
  case streamRead => exact formOf_isSome (range?_isSome 1 512) _
  case evict => exact formOf_isSome formEvict_isSome _
  case setPort => exact formOf_isSome formSetPort_isSome _
  case setReserve => exact formOf_isSome formSetReserve_isSome _
  case portStatus => exact formOf_isSome (fin?_isSome 7) _
  all_goals exact formEmpty_isSome _

theorem requestBlock_malformed {i : Instr} {k : RequestKind} (hk : requestKind i = some k) (h : i.wellMade = false) :
    requestBlock i = none := by
  rwa [← requestBlock_isSome hk, Option.isSome_eq_false_iff, Option.isNone_iff_eq_none] at h

theorem requestBlock_wellMade {i : Instr} {k : RequestKind} (hk : requestKind i = some k) (h : i.wellMade = true) :
    ∃ act, requestBlock i = some act := by
  rwa [← requestBlock_isSome hk, Option.isSome_iff_exists] at h

/-! ### Overrun -/

/-- A request counted and lost to overrun is one change of its port's controller (R166, R169). -/
theorem State.noted_loseRequest (s : State) (p : Port) : (s.noted p).loseRequest p = s.onCtl p fun c =>
    { c with
      assembly := c.ended
      overrun := if c.overrun < 255 then c.overrun + 1 else c.overrun
      counters := c.counters.addFrameIn.addOverrun } := by
  simp only [State.loseRequest, State.count, State.noted, State.onCtl_onCtl]
  rfl

/-- Settles O28: the overrun comes before every gate, so what the request asks does not matter. -/
theorem requestLostToOverrun : Obligations.RequestLostToOverrun := by
  unfold Obligations.RequestLostToOverrun
  intro s i k p tag hk hheader htakes hfull
  refine ⟨_, exec_request hk hheader s, ?_⟩
  rw [takeRequest_lost k tag _ htakes hfull, State.noted_loseRequest]
  exact followAtn_line s _ p (State.drive_onCol s p _)

/-! ### The gates -/

/-- The two kinds of request that keep the stream (R140). -/
theorem RequestKind.keepsStream_iff (k : RequestKind) : k.keepsStream = true ↔ k = .streamData ∨ k = .streamRead := by
  cases k <;> simp [RequestKind.keepsStream]

/-- A state with its stream closed as its request's kind asks (R140), by the two kinds that keep it. -/
theorem State.closeStream_if (s : State) (p : Port) (k : RequestKind) :
    s.closeStream p k = if k = .streamData ∨ k = .streamRead then s else s.setStream p none := by
  simp only [State.closeStream_eq, RequestKind.keepsStream_iff]

theorem exec_unknownRequestKind (p : Port) (tag kind : Byte) (body : List Byte) (s : State) :
    exec (.unknownRequestKind p tag kind body) s = .next (takeFrame p (fun s =>
      let s := s.count p Counters.addFrameIn
      if (s.ctl p).responses.length < Config.responseQueue then
        (s.setStream p none).respond p tag kind .badRequest .none
      else s.loseRequest p) s) := rfl

@[simp] theorem State.noted_responses (s : State) (p : Port) : ((s.noted p).ctl p).responses = (s.ctl p).responses := by
  simp [State.noted]

/-- Settles O29: without a block a request is answered before any gate; a REQUEST of no known kind takes the same path. -/
theorem formGateRefuses : Obligations.FormGateRefuses := by
  unfold Obligations.FormGateRefuses
  intro s p tag htakes
  refine ⟨fun i k hk hheader hbad => ⟨_, exec_request hk hheader s, ?_⟩,
    fun kind body => ⟨_, exec_unknownRequestKind p tag kind body s, ?_⟩⟩
  · rw [requestBlock_malformed hk hbad, ← State.closeStream_if]
    exact takeRequest_badRequest k tag htakes
  · have hroom : ((s.noted p).ctl p).responses.length < Config.responseQueue := by
      rw [State.noted_responses]; exact htakes.2
    rw [takeFrame_taken _ htakes.1, State.noted_eq]
    simp only [if_pos hroom]
    rw [State.respond_eq _ _ _ _ (by simpa using htakes.2), ← State.answer_closed_eq]
    refine followAtn_line s _ p fun q hq => ?_
    rw [(Beside.setStream p none).drive _ q hq, State.answer_atnDrive _ _ _ _ _ _ hq]

theorem sessionGate_vacant {k : RequestKind} (h : k ≠ .hello) : sessionGate k .vacant = some .notAttached := by
  rw [sessionGate, if_neg h]

theorem sessionGate_withdrawing {k : RequestKind} (h : k ≠ .hello) : sessionGate k .withdrawing = some .busy := by
  rw [sessionGate, if_neg h]

/-- A session that is ATTACHED or DORMANT refuses no request (R151). -/
theorem sessionGate_live (k : RequestKind) {x : SessionState} (h : x = .attached ∨ x = .dormant) : sessionGate k x = none := by
  unfold sessionGate
  rcases h with rfl | rfl <;> split <;> rfl

theorem RequestKind.supervision_iff (k : RequestKind) :
    k.supervision = true ↔ k ∈ [.evict, .setPort, .setReserve, .portStatus, .storeStatus, .systemReset] := by
  cases k <;> simp [RequestKind.supervision]

theorem State.supervisorFlag_iff (s : State) (p : Port) : s.supervisorFlag p = true ↔ p = 0 ∧ s.supervisor = true := by
  simp [State.supervisorFlag]

/-- A request refused at a gate is answered so and changes nothing but what every request of its kind does. -/
theorem takeRequest_gated {k : RequestKind} {s : State} {p : Port} {st : Status} (tag : Byte) (act : State → State × Answer)
    (h : s.takesRequests p) (hg : s.gate p k = some st) :
    EqualButLine p ((s.answer p tag k.code st .none).closeStream p k) (takeRequest k p tag (some act) s) := by
  rw [takeRequest_refused tag act h hg, ← State.answer_closeStream_eq]
  refine followAtn_line _ _ _ fun q hq => ?_
  rw [(Beside.closeStream p k).drive _ q hq, State.answer_atnDrive _ _ _ _ _ _ hq]

/-- Settles O30: which gate refuses, by the session's state. -/
theorem sessionAndPrivilegeGates : Obligations.SessionAndPrivilegeGates := by
  unfold Obligations.SessionAndPrivilegeGates
  intro s i k p tag st hk hhello hheader htakes hgood hcase
  obtain ⟨act, hact⟩ := requestBlock_wellMade hk hgood
  refine ⟨_, exec_request hk hheader s, ?_⟩
  rw [hact, ← State.closeStream_if]
  refine takeRequest_gated tag act htakes ?_
  rcases hcase with ⟨hvacant, rfl⟩ | ⟨hwithdrawing, rfl⟩ | ⟨hlive, hkind, hflag, rfl⟩
  · rw [State.gate, hvacant, sessionGate_vacant hhello]
  · rw [State.gate, hwithdrawing, sessionGate_withdrawing hhello]
  · have hsupervision := (RequestKind.supervision_iff k).mpr hkind
    have hclear : s.supervisorFlag p = false := Bool.eq_false_iff.mpr fun h => hflag ((State.supervisorFlag_iff s p).mp h)
    simp only [State.gate, sessionGate_live k hlive, privilegeGate, hsupervision, hclear, and_self, if_true]

/-! ### Frames while the part is halted or STARTING -/

/-- Every command that a frame spells is the taking of a frame at its port. -/
theorem exec_frame {i : Instr} {p : Port} (h : (requestHeader i).map Prod.fst = some p ∨ (∃ n, i = .ack p n) ∨
    (∃ n, i = .nak p n) ∨ (∃ tag, i = .inboundFrameError p tag)) (s : State) :
    ∃ act, exec i s = .next (takeFrame p act s) := by
  rcases h with h | ⟨n, rfl⟩ | ⟨n, rfl⟩ | ⟨tag, rfl⟩
  · cases i <;> cases h <;> exact ⟨_, rfl⟩
  · exact ⟨_, rfl⟩
  · exact ⟨_, rfl⟩
  · exact ⟨_, rfl⟩

/-- Settles O31: whatever the frame, its act is not reached. -/
theorem framesIgnoredWhileStarting : Obligations.FramesIgnoredWhileStarting := by
  unfold Obligations.FramesIgnoredWhileStarting
  intro s i p hframe
  obtain ⟨act, hact⟩ := exec_frame hframe s
  refine ⟨fun hlow => ?_, fun hhigh hstarting => ?_⟩
  · rw [hact, takeFrame_halted act hlow]
  · rw [hact, takeFrame_starting act hhigh hstarting]

end Sys2Proof.Machine

/-! PROOFS. What a command is made of. `Change` lists the changes of one record, each with what it must respect: the line of a port,
the bound of its queue, the engine law, the inlet laws, a REVOKED family, the configuration and bulk memory. `Changes` is a run of
them, and every shared operation of the model is one. A law that each `Change` keeps is then kept by every operation. -/

namespace Sys2Proof.Machine

/-! ### One change -/

/-- A session in which the agent is attached, active or resting (R106). -/
def Session.live (x : Session) : Prop := x.state = .attached ∨ x.state = .dormant

/-- The laws of one inlet (R19, R20): its queue within the depth limit, and nothing in it while it is CLOSED. -/
def Inlet.lawful (x : Inlet) : Prop := x.queue.length ≤ x.depth ∧ (x.state = .closed → x.queue = [] ∧ x.credit = 0)

/-- What may stand in a family's record after `x`: a FREE family stays FREE, and a REVOKED one ends or keeps all but its copy count
(R44, R52). -/
structure Family.Follows (x y : Option Family) : Prop where
  free : x = none → y = none
  revoked : ∀ a, x = some a → a.state = .revoked → y = none ∨ ∃ b, y = some b ∧ b = { a with copies := b.copies }

/-- What a command may do beyond what every command may: change the configuration, change a byte of bulk memory, take a FREE
family. -/
structure Leave where
  configure : Prop
  write : Nat → Prop
  create : Fin 256 → Prop

/-- One change of one record. The configuration, a byte of bulk memory and a FREE family change only where `may` allows it. -/
inductive Change (may : Leave) : State → State → Prop
  | ctl {s : State} {p : Port} {f : PortController → PortController} :
      (f (s.ctl p)).atn = (s.ctl p).atn → ((s.ctl p).responses.length ≤ 4 → (f (s.ctl p)).responses.length ≤ 4) →
      Change may s (s.onCtl p f)
  | session {s : State} {p : Port} {f : Session → Session} :
      ((f (s.session p)).live → (s.session p).live) → Change may s (s.onSession p f)
  | engine {s : State} {p : Port} {f : Engine → Engine} :
      (EngineLaw (s.engine p) → EngineLaw (f (s.engine p))) → Change may s (s.onEngine p f)
  | stream (s : State) (p : Port) (x : Option Stream) : Change may s (s.setStream p x)
  | inlet {s : State} {p : Port} {i : Fin 16} {f : Inlet → Inlet} :
      (InletLaw s → (f (s.inlet p i)).lawful) →
      (i = 0 → (s.inlet p i).state = .opened → (f (s.inlet p i)).state = .opened) → Change may s (s.onInlet p i f)
  | lanes (s : State) (p : Port) (f : Tab 4 Lane → Tab 4 Lane) :
      Change may s (s.onCol p fun c => { c with lanes := f c.lanes })
  | begins (s : State) (p : Port) (agentClass : Byte) (name : List Byte) :
      Change may s (s.beginSession p agentClass name)
  | cleared {s : State} {p : Port} : ¬ (s.session p).live →
      Change may s (s.onCol p fun c => { c with inlets := freshInlets, lanes := freshLanes })
  | route (s : State) (p : Port) (i : Fin 63) (x : Option RouteCopy) : Change may s (s.setRoute p i x)
  | grant (s : State) (p : Port) (i : Fin 8) (x : Option Grant) : Change may s (s.setGrant p i x)
  | family {s : State} {f : Fin 256} {x : Option Family} : Family.Follows (s.family f) x → Change may s (s.setFamily f x)
  | newFamily (s : State) {f : Fin 256} (x : Family) : may.create f → Change may s (s.setFamily f (some x))
  | window (s : State) (w : Fin 32) (x : Option Window) : Change may s (s.setWindow w x)
  | familyRevoked (s : State) (f : Fin 256) : Change may s (s.revokeFamily f)
  | windowRevoked (s : State) (w : Fin 32) : Change may s (s.revokeWindow w)
  | store (s : State) (f : Store → Store) : Change may s (s.onStore f)
  | started (s : State) (strap : Bool) :
      Change may s { s with controller := .running, supervisor := strap, pendingReset := none }
  | config {s : State} (x : Configuration) : may.configure → Change may s { s with config := x }
  | bulk {s : State} {m : List Host.Cell} : (Memory.wf s.bulk = true → Memory.wf m = true) →
      (∀ a, Memory.read m a ≠ Memory.read s.bulk a → may.write a) → Change may s { s with bulk := m }

/-- A run of changes. -/
abbrev Changes (may : Leave) : State → State → Prop := Relation.ReflTransGen (Change may)

/-- A leave that allows all that another does. -/
structure Leave.Within (may may' : Leave) : Prop where
  configure : may.configure → may'.configure
  write : ∀ a, may.write a → may'.write a
  create : ∀ f, may.create f → may'.create f

theorem Change.mono {may may' : Leave} {s t : State} (hle : may.Within may') (h : Change may s t) : Change may' s t := by
  cases h with
  | ctl h1 h2 => exact .ctl h1 h2
  | session h => exact .session h
  | engine h => exact .engine h
  | stream p x => exact .stream s p x
  | inlet h1 h2 => exact .inlet h1 h2
  | lanes p f => exact .lanes s p f
  | begins p c n => exact .begins s p c n
  | cleared h => exact .cleared h
  | route p i x => exact .route s p i x
  | grant p i x => exact .grant s p i x
  | family h => exact .family h
  | newFamily x h => exact .newFamily s x (hle.create _ h)
  | window w x => exact .window s w x
  | familyRevoked f => exact .familyRevoked s f
  | windowRevoked w => exact .windowRevoked s w
  | store f => exact .store s f
  | started strap => exact .started s strap
  | config x h => exact .config x (hle.configure h)
  | bulk h1 h2 => exact .bulk h1 fun a ha => hle.write a (h2 a ha)

theorem Changes.mono {may may' : Leave} {s t : State} (hle : may.Within may') (h : Changes may s t) : Changes may' s t :=
  Relation.ReflTransGen.mono (fun _ _ h => Change.mono hle h) _ _ h

section
variable {may : Leave}

theorem Changes.refl (s : State) : Changes may s s := Relation.ReflTransGen.refl

theorem Changes.one {s t : State} (h : Change may s t) : Changes may s t := Relation.ReflTransGen.single h

theorem Changes.foldl {α : Type} (f : State → α → State) (h : ∀ s a, Changes may s (f s a)) (s : State) (l : List α) :
    Changes may s (l.foldl f s) := by
  induction l generalizing s with
  | nil => exact Changes.refl s
  | cons a l ih => exact (h s a).trans (ih _)

/-! ### Changes that respect everything by their form -/

/-- A change of a port's controller that touches neither the line nor the queue. -/
theorem Changes.quiet (s : State) (p : Port) {f : PortController → PortController}
    (hatn : (f (s.ctl p)).atn = (s.ctl p).atn) (hresponses : (f (s.ctl p)).responses = (s.ctl p).responses) :
    Changes may s (s.onCtl p f) :=
  Changes.one (.ctl hatn fun h => by rwa [hresponses])

theorem Changes.count (s : State) (p : Port) (f : Counters → Counters) : Changes may s (s.count p f) :=
  Changes.quiet s p rfl rfl

theorem Changes.spend (s : State) (p : Port) : Changes may s (s.spend p) := by
  rw [State.spend_eq]
  exact Changes.quiet s p rfl rfl

theorem Changes.noted (s : State) (p : Port) : Changes may s (s.noted p) := Changes.quiet s p rfl rfl

theorem Changes.loseRequest (s : State) (p : Port) : Changes may s (s.loseRequest p) :=
  (Changes.quiet s p rfl rfl).trans (Changes.count _ p _)

/-- A change of a session that keeps its state. -/
theorem Changes.sessionKept (s : State) (p : Port) {f : Session → Session} (h : (f (s.session p)).state = (s.session p).state) :
    Changes may s (s.onSession p f) :=
  Changes.one (.session fun hl => by rwa [Session.live, h] at hl)

theorem Changes.closeStream (s : State) (p : Port) (k : RequestKind) : Changes may s (s.closeStream p k) := by
  unfold State.closeStream
  split
  · exact Changes.refl s
  · exact Changes.one (.stream s p none)

theorem Changes.idleEngine (s : State) (p : Port) : Changes may s (s.idleEngine p) :=
  Changes.one (.engine fun _ => ⟨rfl, rfl, rfl, rfl⟩)

/-! ### The response queue (R168) -/

theorem Changes.enqueue (s : State) (p : Port) (r : Response) : Changes may s (s.enqueue p r) := by
  refine Changes.one (.ctl ?_ fun h => ?_)
  · split <;> rfl
  · split
    · next hroom => simpa [Config.responseQueue] using hroom
    · exact h

theorem Changes.respond (s : State) (p : Port) (tag kind : Byte) (st : Status) (r : Result) :
    Changes may s (s.respond p tag kind st r) := Changes.enqueue s p _

theorem Changes.moveHeld (s : State) (p : Port) : Changes may s (s.moveHeld p) := by
  unfold State.moveHeld
  refine Relation.ReflTransGen.trans (Changes.one (.ctl rfl fun h => ?_)) (Changes.sessionKept _ p rfl)
  simp only [Config.responseQueue, List.length_append, List.length_take]
  omega

theorem Changes.answerOrHold (s : State) (p : Port) (r : Response) : Changes may s (s.answerOrHold p r) := by
  unfold State.answerOrHold
  split
  · exact Changes.enqueue s p r
  · exact Changes.sessionKept s p rfl

theorem Changes.frameFailed (s : State) (p : Port) (tag : Option Byte) : Changes may s (s.frameFailed p tag) := by
  unfold State.frameFailed
  refine (Changes.count s p Counters.addFrameError).trans ?_
  dsimp only
  split
  · exact Changes.respond _ p _ _ _ _
  · exact Changes.loseRequest _ p

/-! ### Copies and grants -/

theorem Family.follows_none (x : Option Family) : Family.Follows x none := ⟨fun _ => rfl, fun _ _ _ => .inl rfl⟩

/-- A change of the copy count alone. -/
theorem Family.follows_copies (x : Family) (n : Nat) : Family.Follows (some x) (some { x with copies := n }) := by
  refine ⟨nofun, ?_⟩
  rintro a ha -
  cases ha
  exact .inr ⟨_, rfl, rfl⟩

theorem Changes.lowerFamily (s : State) (f : Fin 256) : Changes may s (s.lowerFamily f).1 := by
  unfold State.lowerFamily
  cases hf : s.family f with
  | none => exact Changes.refl s
  | some x =>
    dsimp only
    split
    · exact Changes.one (.family (Family.follows_none _))
    · exact Changes.one (.family (by rw [hf]; exact Family.follows_copies x _))

theorem Changes.endCopy (s : State) (f : Fin 256) (p : Port) (r : RouteDropReason) :
    Changes may s (s.endCopy f p r).1 := Changes.lowerFamily s f

theorem Changes.lowerWindow (s : State) (w : Fin 32) : Changes may s (s.lowerWindow w) := by
  unfold State.lowerWindow
  split
  · split <;> exact Changes.one (.window s w _)
  · exact Changes.refl s

theorem Changes.raiseFamily (s : State) (f : Fin 256) : Changes may s (s.raiseFamily f) := by
  unfold State.raiseFamily
  cases hf : s.family f with
  | none => exact Changes.refl s
  | some x => exact Changes.one (.family (by rw [hf]; exact Family.follows_copies x _))

theorem Changes.raiseWindow (s : State) (w : Fin 32) : Changes may s (s.raiseWindow w) := by
  unfold State.raiseWindow
  split
  · exact Changes.one (.window s w _)
  · exact Changes.refl s

theorem Changes.revokeFamilies (s : State) (fs : List (Fin 256)) : Changes may s (s.revokeFamilies fs) :=
  Changes.foldl _ (fun s f => Changes.one (.familyRevoked s f)) s fs

theorem Changes.revokeWindows (s : State) (ws : List (Fin 32)) : Changes may s (s.revokeWindows ws) :=
  Changes.foldl _ (fun s w => Changes.one (.windowRevoked s w)) s ws

theorem Changes.decrement (s : State) (d : Sender) : Changes may s (s.decrement d) := by
  unfold State.decrement
  split
  · exact Changes.refl s
  · split
    · split
      · split
        · exact Changes.one (.route s _ _ _)
        · exact Changes.refl s
      · exact Changes.refl s
    · exact Changes.refl s

theorem Changes.endEnclosures (s : State) (p : Port) (r : RouteDropReason) (es : List Enclosure) :
    Changes may s (s.endEnclosures p r es).1 := by
  induction es generalizing s with
  | nil => exact Changes.refl s
  | cons e es ih =>
    cases e with
    | route f m rights q st =>
      cases st with
      | inTransit => exact (Changes.endCopy s f p r).trans (ih _)
      | reserved i => exact ih s
      | dropped x => exact ih s
    | grant w m rights st =>
      cases st with
      | inTransit => exact (Changes.lowerWindow s w).trans (ih _)
      | reserved i => exact ih s
      | dropped x => exact ih s

theorem Changes.freeReserved (s : State) (p : Port) (r : RouteDropReason) (es : List Enclosure) :
    Changes may s (s.freeReserved p r es).1 := by
  induction es generalizing s with
  | nil => exact Changes.refl s
  | cons e es ih =>
    cases e with
    | route f m rights q st =>
      cases st with
      | reserved i => exact ((Changes.one (.route s p i none)).trans (Changes.endCopy _ f p r)).trans (ih _)
      | inTransit => exact ih s
      | dropped x => exact ih s
    | grant w m rights st =>
      cases st with
      | reserved i => exact ((Changes.one (.grant s p i none)).trans (Changes.lowerWindow _ w)).trans (ih _)
      | inTransit => exact ih s
      | dropped x => exact ih s

theorem Changes.settleRoute (s : State) (p : Port) (f : Fin 256) (rights : RouteRights) (quota : Nat) :
    Changes may s (s.settleRoute p f rights quota).2.1 := by
  unfold State.settleRoute
  split
  · split
    · exact (Changes.one (.store s _)).trans (Changes.one (.route _ _ _ _))
    · exact Changes.endCopy s f p _
  · exact Changes.lowerFamily s f
  · exact Changes.lowerFamily s f

theorem Changes.settleGrant (s : State) (p : Port) (w : Fin 32) (rights : GrantRights) :
    Changes may s (s.settleGrant p w rights).2 := by
  unfold State.settleGrant
  split
  · split
    · exact Changes.one (.grant s _ _ _)
    · exact Changes.lowerWindow s w
  · exact Changes.lowerWindow s w
  · exact Changes.lowerWindow s w

theorem Changes.settleAll (s : State) (p : Port) (es : List Enclosure) : Changes may s (s.settleAll p es).2.1 := by
  induction es generalizing s with
  | nil => exact Changes.refl s
  | cons e es ih =>
    cases e with
    | route f m rights q st =>
      cases st with
      | inTransit => exact (Changes.settleRoute s p f rights q).trans (ih _)
      | reserved i => exact ih s
      | dropped x => exact ih s
    | grant w m rights st =>
      cases st with
      | inTransit => exact (Changes.settleGrant s p w rights).trans (ih _)
      | reserved i => exact ih s
      | dropped x => exact ih s

theorem Changes.installRoute (s : State) (p : Port) (d : Sender) (f : Fin 256) (m : EnclosureMode) (i : Fin 63) :
    Changes may s (s.installRoute p d f m i).1 := by
  unfold State.installRoute
  split
  · split <;> exact Changes.one (.route s p i _)
  · exact Changes.one (.route s p i _)

theorem Changes.installAll (s : State) (p : Port) (d : Sender) (es : List Enclosure) :
    Changes may s (s.installAll p d es).1 := by
  induction es generalizing s with
  | nil => exact Changes.refl s
  | cons e es ih =>
    cases e with
    | route f m rights q st =>
      cases st with
      | reserved i => exact (Changes.installRoute s p d f m i).trans (ih _)
      | inTransit => exact ih s
      | dropped x => exact ih s
    | grant w m rights st =>
      cases st with
      | reserved i => exact (Changes.one (.grant s p i _)).trans (ih _)
      | inTransit => exact ih s
      | dropped x => exact ih s

theorem Changes.enclose (s : State) (p : Port) (x : Spec) : Changes may s (s.enclose p x).1 := by
  unfold State.enclose
  split
  · split
    · split
      · dsimp only
        split
        · exact Changes.one (.route s p _ none)
        · exact Changes.raiseFamily s _
      · exact Changes.refl s
    · exact Changes.refl s
  · split
    · dsimp only
      split
      · exact Changes.one (.grant s p _ none)
      · exact Changes.raiseWindow s _
    · exact Changes.refl s

theorem Changes.encloseAll (s : State) (p : Port) (xs : List Spec) : Changes may s (s.encloseAll p xs).1 := by
  induction xs generalizing s with
  | nil => exact Changes.refl s
  | cons x xs ih => exact (Changes.enclose s p x).trans (ih _)

theorem firstFrom_spec {α : Type} {p : α → Bool} {xs : List α} {k n : Nat} (h : firstFrom p xs k = some n) :
    ∃ m, ∃ hm : m < xs.length, n = k + m ∧ p xs[m] = true := by
  induction xs generalizing k with
  | nil => cases h
  | cons x xs ih =>
    unfold firstFrom at h
    split at h
    · next hp => cases h; exact ⟨0, Nat.succ_pos _, rfl, hp⟩
    · obtain ⟨m, hm, hn, hp⟩ := ih h
      exact ⟨m + 1, Nat.succ_lt_succ hm, by omega, hp⟩

/-- The record found satisfies the test. -/
theorem Tab.first_spec {n : Nat} {α : Type} {p : α → Bool} {t : Tab n α} {i : Fin n} (h : t.first p = some i) :
    p (t.get i) = true := by
  obtain ⟨k, hk, hi⟩ := Option.bind_eq_some_iff.mp h
  obtain ⟨m, hm, rfl, hp⟩ := firstFrom_spec hk
  have hlt : 0 + m < n := by rw [Nat.zero_add, ← t.len]; exact hm
  simp only [fin?, hlt, dif_pos, Option.some.injEq] at hi
  subst hi
  simpa [Tab.get] using hp

theorem State.family_of_freeFamily {s : State} {f : Fin 256} (h : s.freeFamily = some f) : s.family f = none :=
  Option.isNone_iff_eq_none.mp (Tab.first_spec h)

theorem Changes.mint (s : State) (p : Port) (n : Nat) (r : Option (Fin 16)) (hcreate : ∀ f, s.family f = none → may.create f) :
    Changes may s (s.mint p n r).1 := by
  unfold State.mint
  split
  · exact Changes.refl s
  · split
    · exact Changes.refl s
    · next hf => exact Changes.one (.newFamily s _ (hcreate _ (State.family_of_freeFamily hf)))

theorem Changes.charge (s : State) (p : Port) (i : Fin 63) (path : Path) : Changes may s (s.charge p i path) := by
  unfold State.charge
  split
  · split
    · exact Changes.one (.route s p i _)
    · exact Changes.refl s
  · exact (Changes.one (.route s p i none)).trans (Changes.lowerFamily _ _)

/-! ### Messages and notices -/

theorem Inlet.lawful_of_law {s : State} (h : InletLaw s) (p : Port) (i : Fin 16) : (s.inlet p i).lawful :=
  ⟨h.depth p i, h.closed p i⟩

/-- A message may join an inlet that has room and is not CLOSED. -/
theorem Changes.append {s : State} {p : Port} {i : Fin 16} (d : Descriptor)
    (h : InletLaw s → (s.inlet p i).state ≠ .closed ∧ (s.inlet p i).queue.length < (s.inlet p i).depth) :
    Changes may s (s.append p i d) := by
  have hjoin : Changes may s (s.onInlet p i fun x => { x with queue := x.queue ++ [d] }) :=
    Changes.one (.inlet (fun hlaw => ⟨by simpa using (h hlaw).2, fun hc => absurd hc (h hlaw).1⟩) fun _ => id)
  unfold State.append
  refine hjoin.trans ?_
  dsimp only
  split
  · exact Changes.sessionKept _ _ rfl
  · exact Changes.refl _

theorem Changes.place {s : State} {m : NewMessage}
    (h : InletLaw s → (s.inlet m.targetPort m.targetInlet).state ≠ .closed ∧
      (s.inlet m.targetPort m.targetInlet).queue.length < (s.inlet m.targetPort m.targetInlet).depth) :
    Changes may s (s.place m) :=
  (Changes.one (.store s _)).trans (Changes.append _ fun hlaw => h ⟨hlaw.depth, hlaw.closed, hlaw.notices⟩)

theorem State.hears_iff (s : State) (c : NoticeCall) :
    s.hears c = true ↔ (s.session c.port).live ∧ (s.session c.port).generation = c.generation := by
  simp [State.hears, Session.live]

theorem State.noticeRoom_iff (s : State) (p : Port) : s.noticeRoom p = true ↔
    1 ≤ s.store.freeDescriptors ∧ 1 ≤ s.store.freeCells ∧ (s.inlet p 0).queue.length < (s.inlet p 0).depth := by
  simp [State.noticeRoom, State.hasRoom, show cellsFor 16 = 1 from rfl, and_assoc]

theorem Changes.addNotice {s : State} {c : NoticeCall} (hears : s.hears c = true) (room : s.noticeRoom c.port = true) :
    Changes may s (s.addNotice c) := by
  unfold State.addNotice
  refine (Changes.one (.store s _)).trans (Relation.ReflTransGen.trans (Changes.place fun hlaw => ⟨?_, ?_⟩)
    (Changes.sessionKept _ _ rfl))
  · have hopen := hlaw.notices c.port ((State.hears_iff s c).mp hears).1
    exact fun hclosed => by cases hopen.symm.trans hclosed
  · exact ((State.noticeRoom_iff s c.port).mp room).2.2

theorem Changes.loseNotice (s : State) (c : NoticeCall) : Changes may s (s.loseNotice c) := by
  unfold State.loseNotice
  refine ((Changes.sessionKept s c.port (f := fun x => { x with lost := stepUpTo Config.stop8 x.lost }) rfl).trans
    (Changes.one (.store _ fun x => { x with lost := stepUpTo Config.stop16 x.lost }))).trans
    (Changes.one (.inlet (fun hlaw => ?_) fun _ hopen => ?_))
  · split <;> exact Inlet.lawful_of_law hlaw c.port 0
  · split <;> exact hopen

theorem Changes.notify (s : State) (c : NoticeCall) : Changes may s (s.notify c) := by
  unfold State.notify
  split
  · next hears =>
    split
    · next room => exact Changes.addNotice hears room
    · exact Changes.loseNotice s c
  · exact Changes.refl s

theorem Changes.notifyAll (s : State) (cs : List NoticeCall) : Changes may s (s.notifyAll cs) :=
  Changes.foldl _ Changes.notify s cs

theorem Changes.takeOut (s : State) (p : Port) (i : Fin 16) (d : Descriptor) : Changes may s (s.takeOut p i d) := by
  unfold State.takeOut
  refine Relation.ReflTransGen.trans (b := s.onInlet p i fun x => { x with queue := x.queue.erase d })
    (Changes.one (.inlet (fun hlaw => ?_) fun _ => id)) (Changes.one (.store _ _))
  obtain ⟨hdepth, hclosed⟩ := Inlet.lawful_of_law hlaw p i
  refine ⟨List.length_erase_le.trans hdepth, fun hc => ?_⟩
  obtain ⟨hqueue, hcredit⟩ := hclosed hc
  exact ⟨by simp [hqueue], hcredit⟩

theorem Changes.destroy (s : State) (p : Port) (i : Fin 16) (d : Descriptor) (c : DestroyCause) (earlier : List NoticeCall) :
    Changes may s (s.destroy p i d c earlier) :=
  (((Changes.takeOut s p i d).trans (Changes.decrement _ _)).trans (Changes.endEnclosures _ p _ _)).trans
    (Changes.notifyAll _ _)

theorem Changes.settleDrain (s : State) (p : Port) (i : Fin 16) : Changes may s (s.settleDrain p i) := by
  refine Changes.one (.inlet (fun hlaw => ?_) fun _ hopen => ?_)
  · have hlawful := Inlet.lawful_of_law hlaw p i
    split
    · next h => exact ⟨hlawful.1, fun _ => ⟨List.isEmpty_iff.mp h.2, rfl⟩⟩
    · exact hlawful
  · rw [if_neg (by simp [hopen]), hopen]

theorem Changes.onHead (s : State) (p : Port) (i : Fin 16) (f : Descriptor → Descriptor) :
    Changes may s (s.onHead p i f) := by
  rw [State.onHead_eq]
  refine Changes.one (.inlet (fun hlaw => ?_) fun _ => id)
  obtain ⟨hdepth, hclosed⟩ := Inlet.lawful_of_law hlaw p i
  refine ⟨by simpa using hdepth, fun hc => ?_⟩
  obtain ⟨hqueue, hcredit⟩ := hclosed hc
  exact ⟨by simp [hqueue], hcredit⟩

/-- A lawful inlet with a lower credit, or its credit changed while it is not CLOSED. -/
theorem Changes.credit {s : State} {p : Port} {i : Fin 16} {f : Nat → Nat}
    (h : InletLaw s → (s.inlet p i).state = .closed → f (s.inlet p i).credit = 0) :
    Changes may s (s.onInlet p i fun x => { x with credit := f x.credit }) :=
  Changes.one (.inlet (fun hlaw => ⟨hlaw.depth p i, fun hc => ⟨(hlaw.closed p i hc).1, h hlaw hc⟩⟩) fun _ => id)

end

end Sys2Proof.Machine

/-! PROOFS. Every command as a run of changes. First the blocks of the requests, each under what its gates have let pass; then the
events of the engine, the sweeps and the port; last `exec_runs`, which says once what any command can do. -/

namespace Sys2Proof.Machine

section
variable {may : Leave}

/-! ### Sessions and withdrawal -/

theorem Changes.abortEngine (s : State) (p : Port) : Changes may s (s.abortEngine p) := by
  unfold State.abortEngine
  split
  · exact Changes.refl s
  · split
    · exact (((Changes.freeReserved s p _ _).trans (Changes.notifyAll _ _)).trans (Changes.onHead _ _ _ _)).trans
        (Changes.idleEngine _ _)
    · exact Changes.idleEngine s p

theorem Changes.portShare (s : State) (p : Port) : Changes may s (s.portShare p) := by
  unfold State.portShare
  exact (Changes.one (.ctl rfl fun _ => Nat.zero_le _)).trans (Changes.one (.stream _ p none))

theorem Session.not_live_of_withdrawing {x : Session} (h : x.state = .withdrawing) : ¬ x.live := by
  simp [Session.live, h]

theorem Changes.startWithdrawal (s : State) (p : Port) (hello : Option HeldHello) (bye : Option Byte) :
    Changes may s (s.startWithdrawal p hello bye) := by
  unfold State.startWithdrawal
  have hsession : Changes may s (s.onSession p fun x => x.withdraw hello bye) :=
    Changes.one (.session fun hl => absurd hl (Session.not_live_of_withdrawing rfl))
  exact (((hsession.trans (Changes.revokeFamilies _ _)).trans (Changes.revokeWindows _ _)).trans
    (Changes.abortEngine _ p)).trans (Changes.portShare _ p)

theorem Changes.helloBlock (p : Port) (tag : Byte) (f : HelloFields) (s : State) :
    Changes may s (Machine.helloBlock p tag f s).1 := by
  unfold Machine.helloBlock
  split
  · exact Changes.one (.begins s p _ _)
  · exact Changes.startWithdrawal s p _ _
  · exact Changes.startWithdrawal s p _ _
  · split
    · exact Changes.refl s
    · dsimp only
      exact Changes.sessionKept s p rfl

theorem Changes.dormantBlock {p : Port} {s : State} (h : (s.session p).live) :
    Changes may s (Machine.dormantBlock p () s).1 := by
  unfold Machine.dormantBlock
  split
  · exact Changes.refl s
  · split
    · dsimp only
      exact Changes.one (.session fun _ => h)
    · exact Changes.refl s

theorem Changes.resumeBlock (p : Port) (s : State) : Changes may s (Machine.resumeBlock p () s).1 := by
  unfold Machine.resumeBlock
  split
  · next h =>
    dsimp only
    exact Changes.one (.session fun _ => .inr h)
  · exact Changes.refl s

theorem Changes.evictBlock (q : Port) (s : State) : Changes may s (Machine.evictBlock q s).1 := by
  unfold Machine.evictBlock
  split
  · exact Changes.refl s
  · exact Changes.refl s
  · exact Changes.startWithdrawal s q none none
  · exact Changes.startWithdrawal s q none none

/-! ### Routes -/

theorem Changes.createRouteBlock (p : Port) (o : CreateRouteOp) {s : State} (hcreate : ∀ f, s.family f = none → may.create f) :
    Changes may s (Machine.createRouteBlock p o s).1 := by
  by_cases hfixed : o.inlet = 0
  · rw [createRouteBlock_fixed hfixed]
  by_cases hopen : (s.inlet p o.inlet).state = .opened
  · cases hf : s.freeFamily with
    | none => rw [createRouteBlock_noFamily hfixed hopen hf]
    | some f =>
      cases hi : s.freeRoute p with
      | none => rw [createRouteBlock_tableFull hfixed hopen (by simp [hf]) hi]
      | some i =>
        rw [createRouteBlock_ok hfixed hopen hf hi]
        exact ((Changes.one (.store s _)).trans (Changes.one (.newFamily _ _ (hcreate _ (State.family_of_freeFamily hf))))).trans
          (Changes.one (.route _ p i _))
  · rw [createRouteBlock_inletClosed hfixed hopen]

theorem Changes.dropRouteBlock (p : Port) (i : Fin 63) (s : State) : Changes may s (Machine.dropRouteBlock p i s).1 := by
  unfold Machine.dropRouteBlock
  split
  · exact Changes.refl s
  · split
    · exact Changes.refl s
    · exact ((Changes.one (.route s p i none)).trans (Changes.endCopy _ _ p _)).trans (Changes.notifyAll _ _)

theorem Changes.revokeFamilyBlock (p : Port) (f : Fin 256) (s : State) :
    Changes may s (Machine.revokeFamilyBlock p f s).1 := by
  unfold Machine.revokeFamilyBlock
  split
  · exact Changes.refl s
  · split
    · exact Changes.refl s
    · split
      · exact Changes.refl s
      · exact Changes.one (.familyRevoked s f)

theorem Changes.routeInfoBlock (p : Port) (i : Fin 63) (s : State) : Changes may s (Machine.routeInfoBlock p i s).1 := by
  unfold Machine.routeInfoBlock
  split
  · exact Changes.refl s
  · split <;> exact Changes.refl s

/-! ### Inlets and lanes -/

theorem Changes.onLane (s : State) (p : Port) (l : Fin 4) (f : Lane → Lane) : Changes may s (s.onLane p l f) :=
  Changes.one (.lanes s p fun t => t.put l (f (t.get l)))

theorem Changes.openInletBlock (p : Port) (o : OpenInletOp) (s : State) :
    Changes may s (Machine.openInletBlock p o s).1 := by
  unfold Machine.openInletBlock
  split
  · exact Changes.refl s
  · split
    · exact Changes.refl s
    · exact Changes.refl s
    · dsimp only
      exact Changes.one (.inlet (fun _ => ⟨Nat.zero_le _, nofun⟩) fun _ _ => rfl)

theorem Changes.discardQueued (p : Port) (i : Fin 16) (n : Nat) (s : State) :
    Changes may s (State.discardQueued p i n s).1 := by
  induction n generalizing s with
  | zero => exact Changes.refl s
  | succ n ih =>
    unfold State.discardQueued
    split
    · exact (Changes.destroy s p i _ _ _).trans (ih _)
    · exact Changes.refl s

theorem Changes.shutInlet (s : State) {p : Port} {i : Fin 16} (hi : i ≠ 0) : Changes may s (s.shutInlet p i) := by
  refine Changes.one (.inlet (fun hlaw => ?_) fun h => absurd h hi)
  have hdepth := hlaw.depth p i
  split
  · next h => exact ⟨hdepth, fun _ => ⟨List.isEmpty_iff.mp h, rfl⟩⟩
  · exact ⟨hdepth, fun hc => by cases hc⟩

theorem Changes.closeInlet (s : State) (p : Port) {o : CloseInletOp} (hi : o.inlet ≠ 0) :
    Changes may s (s.closeInlet p o).1 := by
  obtain ⟨i, mode⟩ := o
  have hrevoked : Changes may s (s.revokeFamilies (s.boundFamilies p i)) := Changes.revokeFamilies s _
  cases mode with
  | drain => exact hrevoked.trans (Changes.shutInlet _ hi)
  | discard => exact (hrevoked.trans (Changes.discardQueued p i _ _)).trans (Changes.shutInlet _ hi)

theorem Changes.closeInletBlock (p : Port) (o : CloseInletOp) (s : State) :
    Changes may s (Machine.closeInletBlock p o s).1 := by
  unfold Machine.closeInletBlock
  split
  · exact Changes.refl s
  · next hi =>
    split
    · exact Changes.refl s
    · exact Changes.refl s
    · exact Changes.closeInlet s p hi
    · exact Changes.closeInlet s p hi

theorem Changes.setInletBlock (p : Port) (o : SetInletOp) (s : State) : Changes may s (Machine.setInletBlock p o s).1 := by
  unfold Machine.setInletBlock
  dsimp only
  split
  · exact Changes.refl s
  split
  · exact Changes.refl s
  next hstate =>
  split
  · exact Changes.refl s
  next hdepth =>
  split
  · exact Changes.refl s
  · dsimp only
    exact Changes.one (.inlet (fun _ => ⟨Nat.le_of_not_lt hdepth, fun hc => absurd hc hstate⟩) fun _ => id)

theorem Changes.setLaneBlock (p : Port) (o : SetLaneOp) (s : State) : Changes may s (Machine.setLaneBlock p o s).1 := by
  unfold Machine.setLaneBlock
  split
  · exact Changes.refl s
  · split
    · exact Changes.refl s
    · dsimp only
      exact Changes.onLane s p _ _

theorem Changes.receiveBlock (p : Port) (o : ReceiveOp) (s : State) : Changes may s (Machine.receiveBlock p o s).1 := by
  unfold Machine.receiveBlock
  dsimp only
  split
  · exact Changes.refl s
  next hstate =>
  split
  · exact Changes.refl s
  · dsimp only
    exact Changes.credit (f := fun _ => min Config.creditMax ((s.inlet p o.inlet).credit + o.count))
      fun _ hc => absurd hc hstate

/-! ### SEND -/

theorem Changes.refuseSend (s : State) (path : Path) (st : Status) : Changes may s (s.refuseSend path st).1 := by
  unfold State.refuseSend
  dsimp only
  split
  · exact Changes.one (.inlet (fun hlaw => Inlet.lawful_of_law hlaw _ _) fun _ => id)
  · exact Changes.one (.store s _)
  · exact Changes.refl s

/-- Checks 4 and 5 passed: the target inlet is OPEN and has room (R67, R68). -/
theorem State.checkTarget_none {s : State} {path : Path} (h : s.checkTarget path = none) :
    (s.inlet path.family.creator path.family.targetInlet).state = .opened ∧
      (s.inlet path.family.creator path.family.targetInlet).queue.length <
        (s.inlet path.family.creator path.family.targetInlet).depth := by
  unfold State.checkTarget at h
  dsimp only at h
  split_ifs at h with hquota hstate hroom
  exact ⟨not_not.mp hstate, hroom⟩

/-- The state in which an admitted SEND appends its message (R73 to R78): the number drawn, the enclosures made, the reply route
minted, the sending copy charged. -/
def State.admitted (s : State) (p : Port) (o : SendOp) (path : Path) : State :=
  ((s.drawMessage.2.encloseAll p o.specs).1.mint p s.drawMessage.1 o.reply).1.charge p o.slot path

/-- The family an admitted SEND mints (R77). -/
def State.mintedFamily (s : State) (p : Port) (o : SendOp) : Option (Fin 256) :=
  ((s.drawMessage.2.encloseAll p o.specs).1.mint p s.drawMessage.1 o.reply).2

/-- The message of an admitted SEND (R79). -/
def State.admittedMessage (s : State) (p : Port) (o : SendOp) (path : Path) : NewMessage :=
  { messageNumber := s.drawMessage.1, targetPort := path.family.creator, targetInlet := path.family.targetInlet, ret := o.ret,
    sender := .agent p ((s.admitted p o path).session p).generation o.slot path.copy.serial, label := path.family.label,
    enclosures := (s.drawMessage.2.encloseAll p o.specs).2 ++ mintedEnclosure (s.mintedFamily p o), body := o.body }

theorem State.admission_eq (s : State) (p : Port) (o : SendOp) (path : Path) : s.admission p o path =
    ((s.admitted p o path).place (s.admittedMessage p o path), .now .ok (.send s.drawMessage.1 (s.mintedFamily p o))) := rfl

/-- What an admission does before it appends its message moves the tables alone, the number drawn apart. -/
theorem TablesOnly.admitted (s : State) (p : Port) (o : SendOp) (path : Path) :
    TablesOnly s.drawMessage.2 (s.admitted p o path) :=
  ((TablesOnly.encloseAll _ p _).trans (TablesOnly.mint _ p _ _)).trans (TablesOnly.charge _ p _ path)

theorem Changes.drawMessage (s : State) : Changes may s s.drawMessage.2 :=
  Changes.one (.store s fun x => { x with nextMessage := nextNumber s.drawMessage.1 })

theorem State.family_of_raiseFamily {s : State} {f g : Fin 256} (h : (s.raiseFamily g).family f = none) : s.family f = none := by
  unfold State.raiseFamily at h
  split at h
  · by_cases hfg : f = g
    · subst hfg; simp at h
    · rwa [State.setFamily_family_ne _ _ _ hfg] at h
  · exact h

theorem State.family_of_enclose {s : State} {p : Port} {x : Spec} {f : Fin 256} (h : (s.enclose p x).1.family f = none) :
    s.family f = none := by
  unfold State.enclose at h
  split at h
  · split at h
    · split at h
      · dsimp only at h
        split at h
        · exact h
        · exact State.family_of_raiseFamily h
      · exact h
    · exact h
  · split at h
    · dsimp only at h
      split at h
      · exact h
      · unfold State.raiseWindow at h
        split at h <;> exact h
    · exact h

theorem State.family_of_encloseAll {s : State} {p : Port} {xs : List Spec} {f : Fin 256}
    (h : (s.encloseAll p xs).1.family f = none) : s.family f = none := by
  induction xs generalizing s with
  | nil => exact h
  | cons x xs ih => exact State.family_of_enclose (ih h)

theorem Changes.admitted {s : State} (p : Port) (o : SendOp) (path : Path) (hcreate : ∀ f, s.family f = none → may.create f) :
    Changes may s (s.admitted p o path) :=
  (Changes.drawMessage s).trans (((Changes.encloseAll s.drawMessage.2 p o.specs).trans
    (Changes.mint _ p _ o.reply fun f hf => hcreate f (State.family_of_encloseAll (s := s.drawMessage.2) hf))).trans (Changes.charge _ p o.slot path))

theorem Changes.admission {s : State} {p : Port} {o : SendOp} {path : Path} (h : s.checkTarget path = none)
    (hcreate : ∀ f, s.family f = none → may.create f) : Changes may s (s.admission p o path).1 := by
  obtain ⟨hopen, hroom⟩ := State.checkTarget_none h
  have hinlet (q : Port) (i : Fin 16) : (s.admitted p o path).inlet q i = s.inlet q i := (TablesOnly.admitted s p o path).inlet q i
  rw [State.admission_eq]
  refine (Changes.admitted p o path hcreate).trans (Changes.place fun _ => ?_)
  rw [hinlet]
  exact ⟨fun hclosed => (by cases hopen.symm.trans hclosed), hroom⟩

theorem State.checkTarget_of_checkSend {s : State} {p : Port} {o : SendOp} {path : Path} (h : s.checkSend p o path = none) :
    s.checkTarget path = none := by
  cases ht : s.checkTarget path with
  | none => rfl
  | some st => simp [State.checkSend, ht] at h

theorem Changes.sendBlock (p : Port) (o : SendOp) {s : State} (hcreate : ∀ f, s.family f = none → may.create f) :
    Changes may s (Machine.sendBlock p o s).1 := by
  unfold Machine.sendBlock
  split
  · exact Changes.refl s
  · split
    · exact Changes.refuseSend s _ _
    · next hcheck => exact Changes.admission (State.checkTarget_of_checkSend hcheck) hcreate

/-! ### Windows, grants and streams -/

theorem Changes.createWindowBlock (p : Port) (o : CreateWindowOp) (s : State) :
    Changes may s (Machine.createWindowBlock p o s).1 := by
  unfold Machine.createWindowBlock
  split
  · exact Changes.refl s
  · split
    · exact Changes.refl s
    · split
      · exact Changes.refl s
      · exact (Changes.one (.window s _ _)).trans (Changes.one (.grant _ p _ _))

theorem Changes.closeWindowBlock (p : Port) (i : Fin 8) (s : State) :
    Changes may s (Machine.closeWindowBlock p i s).1 := by
  unfold Machine.closeWindowBlock
  split
  · exact Changes.refl s
  · split
    · exact Changes.refl s
    · split
      · exact Changes.refl s
      · split
        · exact Changes.refl s
        · split
          · exact Changes.refl s
          · exact Changes.one (.windowRevoked s _)

theorem Changes.dropGrantBlock (p : Port) (i : Fin 8) (s : State) : Changes may s (Machine.dropGrantBlock p i s).1 := by
  unfold Machine.dropGrantBlock
  split
  · exact Changes.refl s
  · split
    · exact Changes.refl s
    · exact (Changes.one (.grant s p i none)).trans (Changes.lowerWindow _ _)

theorem Changes.streamOpenBlock (p : Port) (o : StreamOpenOp) (s : State) :
    Changes may s (Machine.streamOpenBlock p o s).1 := by
  unfold Machine.streamOpenBlock
  split
  · exact Changes.refl s
  · split
    · exact Changes.refl s
    · exact Changes.refl s
    · split
      · exact Changes.refl s
      · split
        · exact Changes.refl s
        · exact Changes.one (.stream s p _)

theorem Changes.streamReadBlock (p : Port) (n : Nat) (s : State) : Changes may s (Machine.streamReadBlock p n s).1 := by
  unfold Machine.streamReadBlock
  split
  · exact Changes.refl s
  · split
    · exact Changes.one (.stream s p _)
    · exact Changes.one (.stream s p _)
    · exact Changes.one (.stream s p _)

/-- The bytes a frame of `p` may change: those in the window of its stream, when that stands in WRITE (R142). -/
def State.writable (s : State) (p : Port) (a : Nat) : Prop :=
  ∃ x, s.stream p = some x ∧ x.state = .write ∧ x.base.val ≤ a ∧ a ≤ x.limit.val

theorem streamWrite_wf (bs : List Byte) {m : List Host.Cell} (x : Stream) (h : Memory.wf m = true) :
    Memory.wf (streamWrite bs m x).1 = true := by
  induction bs generalizing m x with
  | nil => exact h
  | cons b bs ih =>
    rw [streamWrite_cons]
    exact ih _ (Stream.store_wf x b h)

/-- A byte that STREAM_DATA changes lies in the window (R142). -/
theorem streamWrite_changed {bs : List Byte} {m : List Host.Cell} {x : Stream} {a : Nat}
    (h : Memory.read (streamWrite bs m x).1 a ≠ Memory.read m a) : x.base.val ≤ a ∧ a ≤ x.limit.val := by
  by_contra hout
  refine h (streamWrite_read_other fun k _ hin he => hout ?_)
  obtain ⟨hbase, hlimit⟩ := (Stream.holds_iff x _).mp (he ▸ hin)
  exact ⟨by exact_mod_cast hbase, by exact_mod_cast hlimit⟩

theorem Changes.streamDataBlock {p : Port} {bs : List Byte} {s : State} (hwrite : ∀ a, s.writable p a → may.write a) :
    Changes may s (Machine.streamDataBlock p bs s).1 := by
  cases hx : s.stream p with
  | none => rw [streamDataBlock_none hx]
  | some x =>
    cases hstate : x.state with
    | read => rw [streamDataBlock_read hx hstate]; exact Changes.one (.stream s p none)
    | broken => rw [streamDataBlock_broken hx hstate]; exact Changes.one (.stream s p none)
    | write =>
      rw [streamDataBlock_write hx hstate]
      exact (Changes.one (.bulk (streamWrite_wf bs x) fun a ha => hwrite a ⟨x, hx, hstate, streamWrite_changed ha⟩)).trans
        (Changes.one (.stream _ p _))

/-! ### A request behind its gates -/

/-- A request that passes the gates stands in a live session, a HELLO apart (R151). -/
theorem State.live_of_gate {s : State} {p : Port} {k : RequestKind} (h : s.gate p k = none) (hk : k ≠ .hello) :
    (s.session p).live := by
  cases hs : (s.session p).state with
  | attached => exact .inl hs
  | dormant => exact .inr hs
  | vacant => simp [State.gate, hs, sessionGate_vacant hk] at h
  | withdrawing => simp [State.gate, hs, sessionGate_withdrawing hk] at h

/-- A supervision request that passes the gates is the supervisor's, at port 0 (R152). -/
theorem State.supervisor_of_gate {s : State} {p : Port} {k : RequestKind} (h : s.gate p k = none)
    (hk : k.supervision = true) : p = 0 ∧ s.supervisor = true := by
  have hhello : k ≠ .hello := fun e => by rw [e] at hk; cases hk
  rw [State.gate, sessionGate_live k (State.live_of_gate h hhello)] at h
  rw [← State.supervisorFlag_iff]
  by_contra hflag
  simp [privilegeGate, hk, hflag] at h

/-- What a command may do: change the configuration at port 0 under the supervisor (R152, R176); change, as a STREAM_DATA or a
received byte, what its port's stream may write (R142); take a FREE family (R44). -/
def leaveOf (i : Instr) (s : State) : Leave :=
  { configure := s.supervisor = true ∧ commandPort i = some 0
    write := fun a => ∃ p, s.writable p a ∧ ((∃ tag data, i = .streamData p tag data) ∨ ∃ b, i = .byteReceived p b)
    create := fun f => s.family f = none }

/-- The block of a request is a run of changes, SYSTEM_RESET's apart. -/
theorem Changes.block {i : Instr} {k : RequestKind} {p : Port} {tag : Byte} {act : State → State × Answer} {u : State}
    (hk : requestKind i = some k) (hheader : requestHeader i = some (p, tag)) (hact : requestBlock i = some act)
    (hreset : k ≠ .systemReset) (hg : u.gate p k = none) : Changes (leaveOf i u) u (act u).1 := by
  have hsupervised (h : k.supervision = true) (hp : commandPort i = some p) : (leaveOf i u).configure := by
    obtain ⟨rfl, hflag⟩ := State.supervisor_of_gate hg h
    exact ⟨hflag, hp⟩
  cases i <;> cases hk <;> cases hheader <;> obtain ⟨o, -, rfl⟩ := Option.map_eq_some_iff.mp hact
  case hello => exact Changes.helloBlock p tag o u
  case bye => exact Changes.startWithdrawal u p none (some tag)
  case dormant => exact Changes.dormantBlock (State.live_of_gate hg nofun)
  case resume => exact Changes.resumeBlock p u
  case status => exact Changes.refl u
  case createRoute => exact Changes.createRouteBlock p o fun _ hf => hf
  case dropRoute => exact Changes.dropRouteBlock p o u
  case revokeFamily => exact Changes.revokeFamilyBlock p o u
  case routeInfo => exact Changes.routeInfoBlock p o u
  case openInlet => exact Changes.openInletBlock p o u
  case closeInlet => exact Changes.closeInletBlock p o u
  case setInlet => exact Changes.setInletBlock p o u
  case setLane => exact Changes.setLaneBlock p o u
  case receive => exact Changes.receiveBlock p o u
  case inletStatus => exact Changes.refl u
  case send => exact Changes.sendBlock p o fun _ hf => hf
  case createWindow => exact Changes.createWindowBlock p o u
  case closeWindow => exact Changes.closeWindowBlock p o u
  case dropGrant => exact Changes.dropGrantBlock p o u
  case streamOpen => exact Changes.streamOpenBlock p o u
  case streamData => exact Changes.streamDataBlock fun a ha => ⟨p, ha, .inl ⟨_, _, rfl⟩⟩
  case streamRead => exact Changes.streamReadBlock p o u
  case evict => exact Changes.evictBlock o u
  case setPort => exact Changes.one (.config _ (hsupervised rfl rfl))
  case setReserve => exact Changes.one (.config _ (hsupervised rfl rfl))
  case portStatus => exact Changes.refl u
  case storeStatus => exact Changes.refl u
  case systemReset => exact absurd rfl hreset

end

end Sys2Proof.Machine

/-! PROOFS. The events of the engine, the sweeps and the port as runs of changes. -/

namespace Sys2Proof.Machine

section
variable {may : Leave}

/-! ### What the end of a message leaves alone -/

/-- `t` is `s`, apart from messages in the inlets of `p`, the tables, and what notices touch (R12, R14 to R17): no engine, no stream
and no lane moves, a session keeps all but what notices write, and other agents' inlets keep their messages, with notices at most
behind those of inlet 0. -/
structure MessagesApart (p : Port) (s t : State) : Prop where
  session : ∀ q, t.session q = { s.session q with lost := (t.session q).lost, wakePending := (t.session q).wakePending }
  engine : ∀ q, t.engine q = s.engine q
  stream : ∀ q, t.stream q = s.stream q
  lane : ∀ q l, t.lane q l = s.lane q l
  inlet : ∀ q i, q ≠ p → ∃ new refused, (∀ d ∈ new, d.sender = .controller) ∧ (i ≠ 0 → new = []) ∧
    t.inlet q i = { s.inlet q i with queue := (s.inlet q i).queue ++ new, refusedFull := refused }

theorem MessagesApart.refl (p : Port) (s : State) : MessagesApart p s s :=
  ⟨fun _ => rfl, fun _ => rfl, fun _ => rfl, fun _ _ => rfl, fun q i _ =>
    ⟨[], (s.inlet q i).refusedFull, by simp, fun _ => rfl, by simp⟩⟩

theorem MessagesApart.trans {p : Port} {s t u : State} (h : MessagesApart p s t) (k : MessagesApart p t u) :
    MessagesApart p s u := by
  refine ⟨fun q => ?_, fun q => (k.engine q).trans (h.engine q), fun q => (k.stream q).trans (h.stream q),
    fun q l => (k.lane q l).trans (h.lane q l), fun q i hq => ?_⟩
  · rw [k.session q, h.session q]
  · obtain ⟨n1, r1, c1, z1, e1⟩ := h.inlet q i hq
    obtain ⟨n2, r2, c2, z2, e2⟩ := k.inlet q i hq
    refine ⟨n1 ++ n2, r2, fun d hd => ?_, fun hi => by rw [z1 hi, z2 hi]; rfl, ?_⟩
    · rcases List.mem_append.mp hd with hd | hd
      · exact c1 d hd
      · exact c2 d hd
    · rw [e2, e1]; simp

theorem TablesOnly.messagesApart (p : Port) {s t : State} (h : TablesOnly s t) : MessagesApart p s t :=
  ⟨fun q => by rw [h.session q], h.engine, h.stream, h.lane, fun q i _ =>
    ⟨[], (s.inlet q i).refusedFull, by simp, fun _ => rfl, by simp [h.inlet q i]⟩⟩

theorem NoticesApart.messagesApart (p : Port) {s t : State} (h : NoticesApart s t) : MessagesApart p s t := by
  refine ⟨h.sessionFrame, h.engine, h.stream, h.lane, fun q i _ => ?_⟩
  by_cases hi : i = 0
  · subst hi
    obtain ⟨new, refused, hnew, he⟩ := h.inletZero q
    exact ⟨new, refused, hnew, fun hne => absurd rfl hne, he⟩
  · exact ⟨[], (s.inlet q i).refusedFull, by simp, fun _ => rfl, by simp [h.inletOther q hi]⟩

theorem MessagesApart.takeOut (s : State) (p : Port) (i : Fin 16) (d : Descriptor) : MessagesApart p s (s.takeOut p i d) := by
  unfold State.takeOut
  exact ⟨fun q => by simp, fun q => by simp, fun q => by simp, fun q l => by simp, fun q j hq =>
    ⟨[], (s.inlet q j).refusedFull, by simp, fun _ => rfl, by simp [hq]⟩⟩

theorem MessagesApart.destroy (s : State) (p : Port) (i : Fin 16) (d : Descriptor) (c : DestroyCause) (e : List NoticeCall) :
    MessagesApart p s (s.destroy p i d c e) :=
  (((MessagesApart.takeOut s p i d).trans ((TablesOnly.decrement _ _).messagesApart p)).trans
    ((TablesOnly.endEnclosures _ p _ _).messagesApart p)).trans ((NoticesApart.notifyAll _ _).messagesApart p)

theorem MessagesApart.sweepQueue (p : Port) (i : Fin 16) (n : Nat) (s : State) :
    MessagesApart p s (State.sweepQueue p i n s) := by
  induction n generalizing s with
  | zero => exact MessagesApart.refl p s
  | succ n ih =>
    unfold State.sweepQueue
    split
    · exact (MessagesApart.destroy s p i _ _ _).trans (ih _)
    · exact MessagesApart.refl p s

theorem MessagesApart.sweepInlets (p : Port) (s : State) (l : List (Fin 16)) :
    MessagesApart p s (l.foldl (State.sweepInlet p) s) := by
  induction l generalizing s with
  | nil => exact MessagesApart.refl p s
  | cons i l ih => exact (MessagesApart.sweepQueue p i _ s).trans (ih _)

theorem MessagesApart.sessionState {p : Port} {s t : State} (h : MessagesApart p s t) (q : Port) :
    (t.session q).state = (s.session q).state := by rw [h.session q]

/-! ### The delivery engine -/

theorem Changes.serveLane (s : State) (p : Port) (l : Fin 4) (i : Fin 16) : Changes may s (s.serveLane p l i) := by
  unfold State.serveLane
  have hlane : Changes may s (s.onLane p l fun x => { x with lastServed := i }) := Changes.onLane s p l _
  dsimp only
  split
  · refine hlane.trans (Changes.credit (f := fun n => n - 1) fun hlaw hclosed => ?_)
    rw [(hlaw.closed p i hclosed).2]
  · exact hlane

theorem Changes.present (s : State) (p : Port) (i : Fin 16) (d : Descriptor) : Changes may s (s.present p i d) := by
  unfold State.present
  dsimp only
  exact (((Changes.settleAll s p _).trans (Changes.onHead _ p i _)).trans
    (Changes.one (.engine (p := p) fun _ => by simp [EngineLaw]))).trans (Changes.notifyAll _ _)

theorem Changes.choose (s : State) (p : Port) : Changes may s (s.choose p) := by
  unfold State.choose
  split
  · split
    · split
      · exact (Changes.serveLane s p _ _).trans (Changes.present _ p _ _)
      · exact Changes.refl s
    · exact Changes.refl s
  · exact Changes.refl s

theorem Changes.complete (s : State) (p : Port) (i : Fin 16) (d : Descriptor) : Changes may s (s.complete p i d) := by
  unfold State.complete
  dsimp only
  exact ((((((Changes.installAll s p _ _).trans (Changes.takeOut _ p i d)).trans (Changes.decrement _ _)).trans
    (Changes.notifyAll _ _)).trans (Changes.idleEngine _ p)).trans (Changes.count _ p _)).trans (Changes.settleDrain _ p i)

theorem Changes.abandon (s : State) (p : Port) (i : Fin 16) (d : Descriptor) : Changes may s (s.abandon p i d) := by
  unfold State.abandon
  dsimp only
  exact ((((Changes.freeReserved s p _ _).trans (Changes.destroy _ p i d _ _)).trans (Changes.idleEngine _ p)).trans
    (Changes.count _ p _)).trans (Changes.settleDrain _ p i)

/-- A retry is made of a frame that has been SENT (R94). -/
theorem Changes.retry {s : State} {p : Port} (hsent : (s.engine p).state = .sent) : Changes may s (s.retry p) := by
  unfold State.retry
  split
  · refine Changes.one (.engine fun hlaw => ?_)
    simp only [EngineLaw, hsent] at hlaw ⊢
    exact ⟨hlaw.1, hlaw.2.1, trivial⟩
  · split
    · exact Changes.abandon s p _ _
    · exact Changes.idleEngine s p

theorem Changes.takeAck (s : State) (p : Port) (number : Byte) : Changes may s (s.takeAck p number) := by
  unfold State.takeAck
  split
  · exact Changes.refl s
  · split
    · split
      · exact Changes.complete s p _ _
      · exact Changes.idleEngine s p
    · exact Changes.count s p _

theorem Changes.takeNak (s : State) (p : Port) (number : Byte) : Changes may s (s.takeNak p number) := by
  unfold State.takeNak
  split
  · exact Changes.refl s
  · split
    · next h => exact Changes.retry h.1
    · exact Changes.count s p _

/-! ### The sweeps -/

theorem Changes.report (s : State) (p : Port) (f : Sweep → Sweep) : Changes may s (s.report p f) :=
  Changes.sessionKept s p rfl

theorem Changes.sweepRoute (p : Port) (s : State) (i : Fin 63) : Changes may s (State.sweepRoute p s i) := by
  unfold State.sweepRoute
  split
  · split
    · exact ((Changes.one (.route s p i none)).trans (Changes.endCopy _ _ p .withdrawn)).trans (Changes.notifyAll _ _)
    · exact Changes.refl s
  · exact Changes.refl s

theorem Changes.sweepGrant (p : Port) (s : State) (i : Fin 8) : Changes may s (State.sweepGrant p s i) := by
  unfold State.sweepGrant
  split
  · split
    · exact (Changes.one (.grant s p i none)).trans (Changes.lowerWindow _ _)
    · exact Changes.refl s
  · exact Changes.refl s

theorem Changes.sweepQueue (p : Port) (i : Fin 16) (n : Nat) (s : State) : Changes may s (State.sweepQueue p i n s) := by
  induction n generalizing s with
  | zero => exact Changes.refl s
  | succ n ih =>
    unfold State.sweepQueue
    split
    · exact (Changes.destroy s p i _ _ _).trans (ih _)
    · exact Changes.refl s

theorem Changes.sweepRoutes (s : State) (p : Port) : Changes may s (s.sweepRoutes p) :=
  (Changes.foldl _ (Changes.sweepRoute p) s _).trans (Changes.report _ p _)

theorem Changes.sweepGrants (s : State) (p : Port) : Changes may s (s.sweepGrants p) :=
  (Changes.foldl _ (Changes.sweepGrant p) s _).trans (Changes.report _ p _)

theorem State.due_withdrawing {s : State} {p : Port} {owner : Sweep → Bool} (h : s.due p owner = true) :
    (s.session p).state = .withdrawing := by
  simp only [State.due, Bool.and_eq_true, decide_eq_true_eq] at h
  exact h.1

theorem Changes.sweepInlets {s : State} {p : Port} (h : (s.session p).state = .withdrawing) :
    Changes may s (s.sweepInlets p) := by
  have hstate := ((MessagesApart.sweepInlets p s (List.finRange 16)).sessionState p).trans h
  exact ((Changes.foldl _ (fun s i => Changes.sweepQueue p i _ s) s (List.finRange 16)).trans
    (Changes.one (.cleared (Session.not_live_of_withdrawing hstate)))).trans (Changes.report _ p _)

theorem Session.not_live_of_vacant {x : Session} (h : x.state = .vacant) : ¬ x.live := by
  simp [Session.live, h]

theorem Changes.completeSweep (s : State) (p : Port) : Changes may s (s.completeSweep p) := by
  unfold State.completeSweep
  have hvacant : Changes may s (s.onSession p fun x =>
      { x with state := .vacant, agentClass := 0, name := List.replicate 16 0, sweep := none, heldBye := none,
               heldHello := none }) :=
    Changes.one (.session fun hl => absurd hl (Session.not_live_of_vacant rfl))
  have hbegin (u : State) (c : Byte) (n : List Byte) (r : Response) : Changes may u ((u.beginSession p c n).answerOrHold p r) :=
    (Changes.one (.begins u p c n)).trans (Changes.answerOrHold _ p r)
  dsimp only
  split
  · split
    · exact (hvacant.trans (Changes.answerOrHold _ p _)).trans (hbegin _ _ _ _)
    · exact hvacant.trans (hbegin _ _ _ _)
  · split
    · exact hvacant.trans (Changes.answerOrHold _ p _)
    · exact hvacant

/-! ### Transactions -/

theorem Changes.setProgress (s : State) (p : Port) (o : Outbound) (n : Nat) : Changes may s (s.setProgress p o n) :=
  Changes.quiet s p rfl rfl

theorem Changes.responseOut (s : State) (p : Port) (n : Nat) : Changes may s (s.responseOut p n) := by
  refine Relation.ReflTransGen.trans (Changes.one (.ctl rfl fun h => ?_)) (Changes.moveHeld _ p)
  simp only [List.length_drop]
  omega

theorem Changes.deliverOut (s : State) (p : Port) (n : Nat) : Changes may s (s.deliverOut p n) := by
  unfold State.deliverOut
  split
  · next h =>
    refine Changes.one (.engine fun hlaw => ?_)
    simp only [EngineLaw, h.1] at hlaw ⊢
    exact ⟨hlaw.1, hlaw.2.1, Option.some_ne_none _⟩
  · exact Changes.refl s

theorem Changes.frameOut (s : State) (p : Port) (c : Carried) : Changes may s (s.frameOut p c) := by
  cases c with
  | idle => exact Changes.refl s
  | response n => exact Changes.responseOut s p n
  | deliver n => exact Changes.deliverOut s p n
  | discarded => exact Changes.refl s

theorem Changes.startTransaction (s : State) (p : Port) : Changes may s (s.startTransaction p) := by
  unfold State.startTransaction
  exact Changes.quiet s p rfl rfl

theorem Changes.endTransaction (s : State) (p : Port) : Changes may s (s.endTransaction p) := by
  have hended : Changes may s (s.onCtl p fun c => { c with sel := false, outbound := none, assembly := .searching }) :=
    Changes.quiet s p rfl rfl
  unfold State.endTransaction
  dsimp only
  split
  · exact hended.trans (Changes.frameFailed _ p _)
  · exact hended
  · exact hended
  · exact hended

theorem Changes.shiftByte (s : State) (p : Port) : Changes may s (s.shiftByte p) := by
  unfold State.shiftByte
  split
  · split
    · dsimp only
      split
      · exact (Changes.setProgress s p _ _).trans (Changes.frameOut _ p _)
      · exact Changes.setProgress s p _ _
    · exact Changes.refl s
  · exact Changes.refl s

theorem Changes.completeStartup (s : State) (strap : Bool) : Changes may s (s.completeStartup strap) := by
  unfold State.completeStartup
  dsimp only
  split
  · exact (Changes.one (.started s strap)).trans (Changes.respond _ 0 _ _ _ _)
  · exact Changes.one (.started s strap)

end

end Sys2Proof.Machine

/-! PROOFS. `exec_runs` says once what any command can do: end in a run of changes with the lines following, or be one of the five
commands written out in `Runs`. `Kept.exec` is the induction over it: a law that each change keeps, every command keeps. -/

namespace Sys2Proof.Machine

/-! ### How a command ends -/

/-- How a command that is no reset and no end of a pulse leaves the part: as it was, with one port controller changed beside its line
and queue, or after a run of changes (and a system reset, perhaps) with the lines following. -/
inductive Ends (may : Leave) (s : State) : State → Prop
  | still : Ends may s s
  | quiet {p : Port} {f : PortController → PortController} :
      (f (s.ctl p)).atn = (s.ctl p).atn → (f (s.ctl p)).responses = (s.ctl p).responses → Ends may s (s.onCtl p f)
  | follows {u : State} : Changes may s u → Ends may s (followAtn s u)
  | resets {u : State} (tag : Byte) : Changes may s u → Ends may s (followAtn s (u.systemReset tag))

theorem Ends.mono {may may' : Leave} {s t : State} (hle : may.Within may') (h : Ends may s t) : Ends may' s t := by
  cases h with
  | still => exact .still
  | quiet hatn hresponses => exact .quiet hatn hresponses
  | follows h => exact .follows (h.mono hle)
  | resets tag h => exact .resets tag (h.mono hle)

section
variable {may : Leave}

/-- A frame that is not taken ends in no change beside the end of its assembly. -/
theorem Ends.frame {p : Port} {act : State → State} {s : State} (h : s.takesFrames p → Ends may s (Machine.takeFrame p act s)) :
    Ends may s (Machine.takeFrame p act s) := by
  rcases takeFrame_cases p act s with he | he | ⟨htakes, -⟩
  · rw [he]
    exact .still
  · rw [he, State.spend_eq]
    exact .quiet rfl rfl
  · exact h htakes

theorem Ends.takeFrame {p : Port} {act : State → State} {s : State} (h : Changes may (s.spend p) (act (s.spend p))) :
    Ends may s (takeFrame p act s) := by
  refine .frame fun htakes => ?_
  rw [takeFrame_taken act htakes]
  exact .follows ((Changes.spend s p).trans h)

theorem Ends.event {act : State → State} {s : State} (h : Changes may s (act s)) : Ends may s (event s act) := by
  unfold Machine.event
  split
  · exact .still
  · exact .follows h

end

/-! ### Requests -/

/-- What a command may do after changes that keep the supervisor, open no stream and free no family. -/
theorem leaveOf_within {i : Instr} {s u : State} (hsupervisor : u.supervisor = s.supervisor)
    (hstream : ∀ q x, u.stream q = some x → s.stream q = some x) (hfamily : ∀ f, u.family f = s.family f) :
    (leaveOf i u).Within (leaveOf i s) where
  configure := fun ⟨hs, hi⟩ => ⟨hsupervisor ▸ hs, hi⟩
  write := fun _ ⟨q, ⟨x, hx, hw⟩, hi⟩ => ⟨q, ⟨x, hstream q x hx, hw⟩, hi⟩
  create := fun f hf => (hfamily f).symm.trans hf

theorem State.stream_of_closeStream {s : State} {p q : Port} {k : RequestKind} {x : Stream}
    (h : (s.closeStream p k).stream q = some x) : s.stream q = some x := by
  unfold State.closeStream at h
  split at h
  · exact h
  · by_cases hq : q = p
    · subst hq; simp at h
    · simpa [hq] using h

theorem State.closeStream_family (s : State) (p : Port) (k : RequestKind) (f : Fin 256) :
    (s.closeStream p k).family f = s.family f := by
  unfold State.closeStream
  split <;> rfl

/-- A request taken: a run of changes, or a system reset after one. -/
theorem Ends.request {i : Instr} {k : RequestKind} {p : Port} {tag : Byte} (s : State) (hk : requestKind i = some k)
    (hheader : requestHeader i = some (p, tag)) : Ends (leaveOf i s) s (takeRequest k p tag (requestBlock i) s) := by
  refine Ends.frame fun htakes => ?_
  change Ends (leaveOf i s) s (takeRequest k p tag (requestBlock i) s)
  by_cases hroom : (s.ctl p).responses.length < 4
  swap
  · rw [takeRequest_lost k tag _ htakes (Nat.le_of_not_lt hroom)]
    exact .follows ((Changes.noted s p).trans (Changes.loseRequest _ p))
  rw [takeRequest_taken k tag _ ⟨htakes, hroom⟩]
  have hclosed : Changes (leaveOf i s) s ((s.noted p).closeStream p k) := (Changes.noted s p).trans (Changes.closeStream _ p k)
  cases hblock : requestBlock i with
  | none =>
    rw [dispatch_malformed]
    exact .follows (hclosed.trans (Changes.respond _ p _ _ _ _))
  | some act =>
    cases hgate : ((s.noted p).closeStream p k).gate p k with
    | some st =>
      rw [dispatch_refused tag act hgate]
      exact .follows (hclosed.trans (Changes.respond _ p _ _ _ _))
    | none =>
      by_cases hreset : k = .systemReset
      · subst hreset
        cases i <;> cases hk
        obtain ⟨-, -, rfl⟩ := Option.map_eq_some_iff.mp hblock
        cases hheader
        rw [dispatch_later tag hgate rfl]
        exact .resets tag hclosed
      · have hact : Changes (leaveOf i s) _ (act ((s.noted p).closeStream p k)).1 :=
          (Changes.block hk hheader hblock hreset hgate).mono (leaveOf_within (by simp [State.noted])
            (fun q x hx => by simpa using State.stream_of_closeStream hx)
            (fun f => by rw [State.closeStream_family]; rfl))
        rcases hanswer : act ((s.noted p).closeStream p k) with ⟨v, answer⟩
        rw [hanswer] at hact
        cases answer with
        | now st r =>
          rw [dispatch_served tag hgate hanswer]
          exact .follows ((hclosed.trans hact).trans (Changes.respond _ p _ _ _ _))
        | later =>
          rw [dispatch_later tag hgate hanswer]
          exact .follows (hclosed.trans hact)

theorem Ends.unknownRequestKind {may : Leave} (p : Port) (tag kind : Byte) (body : List Byte) (s : State) :
    ∃ t, exec (.unknownRequestKind p tag kind body) s = .next t ∧ Ends may s t := by
  refine ⟨_, exec_unknownRequestKind p tag kind body s, .takeFrame ?_⟩
  dsimp only
  split
  · exact ((Changes.count _ p _).trans (Changes.one (.stream _ p none))).trans (Changes.respond _ p _ _ _ _)
  · exact (Changes.count _ p _).trans (Changes.loseRequest _ p)

/-! ### Every command -/

/-- What a command leaves: for the two ends of a reset, the assertion of the pin and the end of a pulse the state written out; for a
received byte the outbound byte's event and then the inbound byte's (R156, R159); for every other command what `Ends` says. -/
inductive Runs : Instr → State → State → Prop
  | ends {i : Instr} {s t : State} : (∀ q b, i ≠ .byteReceived q b) → (∀ q, i ≠ .atnPulseEnd q) → Ends (leaveOf i s) s t → Runs i s t
  | powerOn (s : State) : Runs .powerOn s (s.restart [])
  | pinReleased {s : State} : s.rstnLow = true → Runs .resetPinRelease s (s.restart s.bulk)
  | pinAsserted (s : State) :
      Runs .resetPinAssert s { s with rstnLow := true, pendingReset := none, columns := s.columns.map Column.halt }
  | pulseEnded (p : Port) {s : State} : s.rstnLow = false →
      Runs (.atnPulseEnd p) s (s.onCtl p fun c => { c with atn := if c.atn = .pulsing then .released else c.atn })
  | halted (p : Port) {s : State} : s.rstnLow = true → Runs (.atnPulseEnd p) s s
  | byte {p : Port} {b : Byte} {s v t : State} : Ends (leaveOf (.byteReceived p b) s) s v →
      Ends (leaveOf (.byteReceived p b) s) v t → Runs (.byteReceived p b) s t

theorem Ends.runFrame_other {i : Instr} (hk : requestKind i = none) (s : State) :
    ∃ t, Machine.runFrame i s = .next t ∧ Ends (leaveOf i s) s t := by
  cases i <;> cases hk
  case unknownRequestKind p tag kind body => exact Ends.unknownRequestKind p tag kind body s
  case ack p n => exact ⟨_, rfl, .takeFrame ((Changes.count _ p _).trans (Changes.takeAck _ p n))⟩
  case nak p n => exact ⟨_, rfl, .takeFrame ((Changes.count _ p _).trans (Changes.takeNak _ p n))⟩
  case inboundFrameError p tag => exact ⟨_, rfl, .takeFrame (Changes.frameFailed _ p tag)⟩
  all_goals exact ⟨s, rfl, .still⟩

/-- A command that a frame spells, run. -/
theorem Ends.runFrame (i : Instr) (s : State) : ∃ t, Machine.runFrame i s = .next t ∧ Ends (leaveOf i s) s t := by
  cases hk : requestKind i with
  | none => exact Ends.runFrame_other hk s
  | some k =>
    obtain ⟨⟨p, tag⟩, hheader⟩ : ∃ h, requestHeader i = some h := by cases i <;> cases hk <;> exact ⟨_, rfl⟩
    refine ⟨_, ?_, Ends.request s hk hheader⟩
    cases i <;> cases hk <;> cases hheader <;> rfl

theorem commandPort_frameCommand (p : Port) (bytes : List Byte) : commandPort (frameCommand p bytes) = some p := by
  have hrequest (tag : Byte) (body : List Byte) : commandPort (requestCommand p tag body) = some p := by
    unfold requestCommand
    split
    · rfl
    · split
      · next k _ => cases k <;> rfl
      · rfl
  unfold frameCommand
  dsimp only
  split
  · rfl
  split
  · exact hrequest _ _
  split
  · split <;> rfl
  split
  · split <;> rfl
  · rfl

/-- What the command a received byte spells may do, the byte may. -/
theorem leaveOf_byte {i : Instr} {p : Port} (b : Byte) (hi : commandPort i = some p) (s : State) :
    (leaveOf i s).Within (leaveOf (.byteReceived p b) s) where
  configure := fun ⟨hs, hport⟩ => ⟨hs, hi.symm.trans hport⟩
  write := by
    rintro a ⟨q, hw, h⟩
    refine ⟨p, ?_, .inr ⟨b, rfl⟩⟩
    rcases h with ⟨tag, data, rfl⟩ | ⟨b', rfl⟩ <;> cases hi <;> exact hw
  create := fun _ hf => hf

theorem Assembly.take_command {p : Port} {a : Assembly} {b : Byte} {i : Instr} (h : a.take p b = .ended i) :
    commandPort i = some p := by
  unfold Assembly.take at h
  split at h
  · split at h <;> cases h
  · cases h
  · dsimp only at h
    split at h
    · cases h
    split at h
    · cases h; rfl
    split at h
    · cases h; exact commandPort_frameCommand p _
    · cases h

/-- The inbound byte (R159). -/
theorem Ends.takeByte (s : State) (p : Port) (b : Byte) :
    ∃ t, s.takeByte p b = .next t ∧ Ends (leaveOf (.byteReceived p b) s) s t := by
  unfold State.takeByte
  split
  · exact ⟨_, rfl, .still⟩
  · exact ⟨_, rfl, .quiet rfl rfl⟩
  · next i hi =>
    obtain ⟨t, ht, hends⟩ := Ends.runFrame i s
    exact ⟨t, ht, hends.mono (leaveOf_byte b (Assembly.take_command hi) s)⟩

theorem State.shiftByte_keeps (s : State) (p : Port) : (s.shiftByte p).supervisor = s.supervisor ∧
    (∀ q, (s.shiftByte p).stream q = s.stream q) ∧ ∀ f, (s.shiftByte p).family f = s.family f := by
  have hframe (u : State) (c : Carried) : (u.frameOut p c).supervisor = u.supervisor ∧
      (∀ q, (u.frameOut p c).stream q = u.stream q) ∧ ∀ f, (u.frameOut p c).family f = u.family f := by
    unfold State.frameOut
    split
    · exact ⟨rfl, fun _ => rfl, fun _ => rfl⟩
    · simp [State.responseOut, State.moveHeld]
    · unfold State.deliverOut
      split
      · simp
      · exact ⟨rfl, fun _ => rfl, fun _ => rfl⟩
    · exact ⟨rfl, fun _ => rfl, fun _ => rfl⟩
  unfold State.shiftByte
  split
  · split
    · dsimp only
      split
      · obtain ⟨h1, h2, h3⟩ := hframe (s.setProgress p _ _) _
        exact ⟨h1, fun q => (h2 q).trans (by simp [State.setProgress]), h3⟩
      · exact ⟨rfl, fun q => by simp [State.setProgress], fun _ => rfl⟩
    · exact ⟨rfl, fun _ => rfl, fun _ => rfl⟩
  · exact ⟨rfl, fun _ => rfl, fun _ => rfl⟩

theorem Runs.byteReceived (p : Port) (b : Byte) (s : State) : ∃ t, exec (.byteReceived p b) s = .next t ∧ Runs (.byteReceived p b) s t := by
  change ∃ t, execByteReceived p b s = .next t ∧ _
  unfold execByteReceived
  split
  · obtain ⟨hsupervisor, hstream, hfamily⟩ := State.shiftByte_keeps s p
    obtain ⟨t, ht, hends⟩ := Ends.takeByte (followAtn s (s.shiftByte p)) p b
    exact ⟨t, ht, .byte (.follows (Changes.shiftByte s p)) (hends.mono (leaveOf_within (by simp [hsupervisor])
      (fun q x hx => by simpa [hstream] using hx) fun f => by simp [hfamily]))⟩
  · exact ⟨s, rfl, .byte .still .still⟩

theorem State.atnDrive_atn (s : State) (p q : Port) (f : PortController → Atn) :
    (s.onCtl p fun c => { c with atn := f c }).atnDrive q = s.atnDrive q :=
  State.onCtl_atnDrive s p rfl q

/-- The end of a pulse: the line follows nothing, for nothing that drives it changes. -/
theorem exec_atnPulseEnd {s : State} (p : Port) (h : s.rstnLow = false) : exec (.atnPulseEnd p) s =
    .next (s.onCtl p fun c => { c with atn := if c.atn = .pulsing then .released else c.atn }) := by
  have hact : (s.onCtl p fun c => if c.atn = .pulsing then { c with atn := .released } else c) =
      s.onCtl p fun c => { c with atn := if c.atn = .pulsing then .released else c.atn } := by
    refine State.onCtl_congr s p ?_
    split <;> rfl
  change execAtnPulseEnd p s = _
  simp only [execAtnPulseEnd, event, h, hact]
  rw [followAtn_same s _ fun q => State.atnDrive_atn s p q _]
  rfl

theorem exec_runs (i : Instr) (s : State) : ∃ t, exec i s = .next t ∧ Runs i s t := by
  have hframe {i : Instr} (hrun : exec i s = runFrame i s) (hbyte : ∀ q b, i ≠ .byteReceived q b) (hpulse : ∀ q, i ≠ .atnPulseEnd q) :
      ∃ t, exec i s = .next t ∧ Runs i s t := by
    obtain ⟨t, ht, hends⟩ := Ends.runFrame i s
    exact ⟨t, hrun.trans ht, .ends hbyte hpulse hends⟩
  have hevent {i : Instr} {act : State → State} (hi : exec i s = .next (event s act)) (hbyte : ∀ q b, i ≠ .byteReceived q b)
      (hpulse : ∀ q, i ≠ .atnPulseEnd q) (hact : Changes (leaveOf i s) s (act s)) : ∃ t, exec i s = .next t ∧ Runs i s t :=
    ⟨_, hi, .ends hbyte hpulse (.event hact)⟩
  cases i
  case transactionStart p =>
    refine ⟨_, rfl, .ends nofun nofun ?_⟩
    split
    · exact .still
    split
    · exact .quiet rfl rfl
    · exact .follows (Changes.startTransaction s p)
  case transactionEnd p =>
    refine ⟨_, rfl, .ends nofun nofun ?_⟩
    split
    · exact .follows (Changes.endTransaction s p)
    · exact .quiet rfl rfl
  case frameShiftedOut p =>
    refine hevent rfl nofun nofun ?_
    split
    · split
      · exact (Changes.setProgress s p _ _).trans (Changes.frameOut _ p _)
      · exact Changes.refl s
    · exact Changes.refl s
  case timerExpiry p =>
    refine hevent rfl nofun nofun ?_
    split
    · next hsent => exact Changes.retry hsent
    · exact Changes.refl s
  case deliveryChoice p => exact hevent rfl nofun nofun (Changes.choose s p)
  case routeTableSweep p =>
    refine hevent rfl nofun nofun ?_
    split
    · exact Changes.sweepRoutes s p
    · exact Changes.refl s
  case grantTableSweep p =>
    refine hevent rfl nofun nofun ?_
    split
    · exact Changes.sweepGrants s p
    · exact Changes.refl s
  case inletTableSweep p =>
    refine hevent rfl nofun nofun ?_
    split
    · next hdue => exact Changes.sweepInlets (State.due_withdrawing hdue)
    · exact Changes.refl s
  case sweepCompletion p =>
    refine hevent rfl nofun nofun ?_
    split
    · exact Changes.completeSweep s p
    · exact Changes.refl s
  case startupCompletion strap =>
    refine hevent rfl nofun nofun ?_
    split
    · exact Changes.completeStartup s strap
    · exact Changes.refl s
  case powerOn => exact ⟨_, rfl, .powerOn s⟩
  case resetPinAssert => exact ⟨_, rfl, .pinAsserted s⟩
  case resetPinRelease =>
    cases hlow : s.rstnLow with
    | true => exact ⟨_, by simp [exec, execResetPinRelease, hlow], .pinReleased hlow⟩
    | false => exact ⟨s, by simp [exec, execResetPinRelease, hlow], .ends nofun nofun .still⟩
  case atnPulseEnd p =>
    cases hlow : s.rstnLow with
    | true => exact ⟨s, by simp [exec, execAtnPulseEnd, event, hlow], .halted p hlow⟩
    | false => exact ⟨_, exec_atnPulseEnd p hlow, .pulseEnded p hlow⟩
  case byteReceived p b => exact Runs.byteReceived p b s
  all_goals exact hframe rfl nofun nofun

end Sys2Proof.Machine

/-! PROOFS. The laws that every step keeps, each from `Kept.exec`: the queue bound, canonical memory and the engine law (R168, R82), the
inlet laws (R19 to R21), a REVOKED family (R44), the configuration (R176) and bulk memory (R142). -/

namespace Sys2Proof.Machine

/-- A law that every change and every reset but power-on and the pin keeps. -/
structure Kept (may : Leave) (law : State → Prop) : Prop where
  change : ∀ {s t}, Change may s t → law s → law t
  follow : ∀ {s u}, law u → law (followAtn s u)
  quiet : ∀ {s p} {f : PortController → PortController}, (f (s.ctl p)).responses = (s.ctl p).responses → law s → law (s.onCtl p f)
  reset : ∀ {s} tag, law s → law (s.systemReset tag)
  halt : ∀ {s}, law s → law { s with rstnLow := true, pendingReset := none, columns := s.columns.map Column.halt }

section
variable {may : Leave} {law : State → Prop}

theorem Kept.changes (k : Kept may law) {s t : State} (h : Changes may s t) (hs : law s) : law t := by
  induction h with
  | refl => exact hs
  | tail _ hc ih => exact k.change hc ih

theorem Kept.ends (k : Kept may law) {s t : State} (h : Ends may s t) (hs : law s) : law t := by
  cases h with
  | still => exact hs
  | quiet _ hresponses => exact k.quiet hresponses hs
  | follows h => exact k.follow (k.changes h hs)
  | resets tag h => exact k.follow (k.reset tag (k.changes h hs))

end

/-- What every change keeps, every command keeps; power-on and the release of the pin have to be seen to apart. -/
theorem Kept.exec {law : State → Prop} {i : Instr} {s t : State} (k : Kept (leaveOf i s) law) (h : exec i s = .next t)
    (hs : law s) (hon : i = .powerOn → law (s.restart [])) (hpin : i = .resetPinRelease → law (s.restart s.bulk)) : law t := by
  obtain ⟨u, hu, hrun⟩ := exec_runs i s
  obtain rfl : u = t := by cases hu.symm.trans h; rfl
  cases hrun with
  | ends _ _ hends => exact k.ends hends hs
  | powerOn => exact hon rfl
  | pinReleased => exact hpin rfl
  | pinAsserted => exact k.halt hs
  | pulseEnded p => exact k.quiet rfl hs
  | halted => exact hs
  | byte h1 h2 => exact k.ends h2 (k.ends h1 hs)

/-- A law of every state that is kept, over one step of the part. -/
theorem Kept.step {law : State → Prop} (k : ∀ may, Kept may law) (hqueue : ∀ s rest, law s → law { s with pending := rest })
    (hrestart : ∀ s m, (m = [] ∨ m = s.bulk) → law s → law (s.restart m)) {s t : State} (h : step s = .next t) (hs : law s) : law t := by
  unfold Machine.step at h
  split at h
  · cases h; exact hs
  · next c rest _ =>
    have hrest := hqueue s rest hs
    exact (k _).exec h hrest (fun _ => hrestart _ _ (.inl rfl) hrest) fun _ => hrestart _ _ (.inr rfl) hrest

/-! ### What a reset leaves in a column -/

@[simp] theorem State.systemReset_col (s : State) (tag : Byte) (q : Port) :
    (s.systemReset tag).col q = (s.col q).systemReset (s.settings q) := by
  unfold State.systemReset
  rw [followFold_col]
  rfl

theorem State.systemReset_part (s : State) (tag : Byte) : s.systemReset tag =
    { s with controller := .starting, pendingReset := some tag, store := Store.fresh, families := Tab.all 256 none,
             windows := Tab.all 32 none, columns := (s.systemReset tag).columns } := by
  unfold State.systemReset
  rw [followFold_part]

@[simp] theorem State.restart_col (s : State) (m : List Host.Cell) (q : Port) : (s.restart m).col q = (s.col q).restart := by
  simp [State.restart, State.col]

theorem State.halt_col (s : State) (q : Port) :
    ({ s with rstnLow := true, pendingReset := none, columns := s.columns.map Column.halt } : State).col q = (s.col q).halt := by
  simp [State.col]

/-! ### What a change keeps -/

theorem State.revokeWindow_columns (s : State) (w : Fin 32) (q : Port) :
    ∃ g x, (s.revokeWindow w).col q = { s.col q with grants := g, stream := x } := by
  cases h : s.window w with
  | some x => exact ⟨_, _, State.revokeWindow_col h q⟩
  | none => exact ⟨(s.col q).grants, (s.col q).stream, by simp [State.revokeWindow, h]⟩

theorem State.revokeWindow_inlet (s : State) (w : Fin 32) (q : Port) (i : Fin 16) :
    (s.revokeWindow w).inlet q i = s.inlet q i := by
  obtain ⟨_, _, he⟩ := State.revokeWindow_columns s w q
  simp [State.inlet, he]

theorem State.revokeWindow_session (s : State) (w : Fin 32) (q : Port) : (s.revokeWindow w).session q = s.session q := by
  obtain ⟨_, _, he⟩ := State.revokeWindow_columns s w q
  simp [State.session, he]

theorem State.revokeWindow_engine (s : State) (w : Fin 32) (q : Port) : (s.revokeWindow w).engine q = s.engine q := by
  obtain ⟨_, _, he⟩ := State.revokeWindow_columns s w q
  simp [State.engine, he]

theorem State.revokeWindow_family (s : State) (w : Fin 32) (f : Fin 256) : (s.revokeWindow w).family f = s.family f := by
  unfold State.revokeWindow
  split <;> rfl

theorem State.onCol_ctl (s : State) (p : Port) {f : Column → Column} (h : ∀ c, (f c).port = c.port) (q : Port) :
    (s.onCol p f).ctl q = s.ctl q := State.onCol_keeps s p Column.port h q

theorem State.onCol_session (s : State) (p : Port) {f : Column → Column} (h : ∀ c, (f c).session = c.session) (q : Port) :
    (s.onCol p f).session q = s.session q := State.onCol_keeps s p Column.session h q

theorem State.onCol_engine (s : State) (p : Port) {f : Column → Column} (h : ∀ c, (f c).engine = c.engine) (q : Port) :
    (s.onCol p f).engine q = s.engine q := State.onCol_keeps s p Column.engine h q

theorem State.beginSession_engine (s : State) (p q : Port) (c : Byte) (n : List Byte) :
    (s.beginSession p c n).engine q = s.engine q := by
  simp [State.beginSession, State.onCol_engine]

theorem State.beginSession_session (s : State) (p q : Port) (c : Byte) (n : List Byte) (h : q ≠ p) :
    (s.beginSession p c n).session q = s.session q := by
  simp [State.beginSession, State.onCol_session, h]

theorem State.onCol_inlet_ne (s : State) {p q : Port} (f : Column → Column) (h : q ≠ p) (i : Fin 16) :
    (s.onCol p f).inlet q i = s.inlet q i := by
  simp [State.inlet, h]

/-- The inlets when a session begins: inlet 0 OPEN with its R21 values, the others as they were. -/
theorem State.beginSession_inlet (s : State) (p q : Port) (c : Byte) (n : List Byte) (i : Fin 16) :
    (s.beginSession p c n).inlet q i =
      if q = p ∧ i = 0 then { Inlet.freshNotice with state := .opened } else s.inlet q i := by
  by_cases hq : q = p
  · subst hq
    have hlanes (u : State) : (u.onCol q fun c => { c with lanes := freshLanes }).inlet q i = u.inlet q i := by simp [State.inlet]
    unfold State.beginSession
    dsimp only
    rw [hlanes]
    by_cases hi : i = 0
    · subst hi; simp
    · simp [hi]
  · simp [State.beginSession, State.onCol_inlet_ne, hq]

section
variable {may : Leave} {s t : State}

theorem Change.queue (h : Change may s t) (q : Port) (hq : (s.ctl q).responses.length ≤ 4) : (t.ctl q).responses.length ≤ 4 := by
  cases h with
  | @ctl p f _ hresponses =>
    by_cases he : q = p
    · subst he; simpa using hresponses hq
    · simpa [he] using hq
  | lanes p f => simpa [State.onCol_ctl] using hq
  | cleared h => simpa [State.onCol_ctl] using hq
  | begins p c n => rwa [(Calm.beginSession s p c n).ctl q]
  | familyRevoked f => rwa [(TablesOnly.revokeFamily s f).ctl q]
  | windowRevoked w => rwa [(Calm.revokeWindow s w).ctl q]
  | started strap => exact hq
  | config x h => exact hq
  | bulk h1 h2 => exact hq
  | _ => simpa using hq

theorem Change.engineLaw (h : Change may s t) (q : Port) (hq : EngineLaw (s.engine q)) : EngineLaw (t.engine q) := by
  cases h with
  | @engine p f hlaw =>
    by_cases he : q = p
    · subst he; simpa using hlaw hq
    · simpa [he] using hq
  | lanes p f => simpa [State.onCol_engine] using hq
  | cleared h => simpa [State.onCol_engine] using hq
  | begins p c n => rwa [State.beginSession_engine]
  | familyRevoked f => rwa [(TablesOnly.revokeFamily s f).engine q]
  | windowRevoked w => rwa [State.revokeWindow_engine]
  | started strap => exact hq
  | config x h => exact hq
  | bulk h1 h2 => exact hq
  | _ => simpa using hq

theorem Change.memoryCanonical (h : Change may s t) (hs : s.memoryCanonical) : t.memoryCanonical := by
  cases h with
  | bulk hwf _ => exact hwf hs
  | begins p c n => exact hs
  | familyRevoked f => rwa [State.memoryCanonical, (TablesOnly.revokeFamily s f).bulk]
  | windowRevoked w => rwa [State.memoryCanonical, (Calm.revokeWindow s w).bulk]
  | _ => exact hs

/-- Inlets and sessions that a change keeps keep the inlet laws. -/
theorem InletLaw.of_eq (hs : InletLaw s) (hinlet : ∀ q i, t.inlet q i = s.inlet q i)
    (hsession : ∀ q, (t.session q).live → (s.session q).live) : InletLaw t where
  depth := fun q i => by rw [hinlet]; exact hs.depth q i
  closed := fun q i => by rw [hinlet]; exact hs.closed q i
  notices := fun q hlive => by rw [hinlet]; exact hs.notices q (hsession q hlive)

theorem Inlet.freshInlets_get (i : Fin 16) : freshInlets.get i = if i = 0 then Inlet.freshNotice else Inlet.fresh := by
  rw [freshInlets, Tab.get_put, Tab.get_all]

theorem Inlet.fresh_lawful (i : Fin 16) : (freshInlets.get i).lawful := by
  rw [Inlet.freshInlets_get]
  split <;> exact ⟨Nat.zero_le _, fun _ => ⟨rfl, rfl⟩⟩

theorem InletLaw.of_lawful (hlawful : ∀ q i, (t.inlet q i).lawful) (hnotices : ∀ q, (t.session q).live → (t.inlet q 0).state = .opened) :
    InletLaw t :=
  ⟨fun q i => (hlawful q i).1, fun q i => (hlawful q i).2, hnotices⟩

theorem Change.inletLaw (h : Change may s t) (hs : InletLaw s) : InletLaw t := by
  have hlawful := Inlet.lawful_of_law hs
  cases h with
  | @inlet p i f hf hopen =>
    refine .of_lawful (fun q j => ?_) fun q hlive => ?_
    · by_cases he : q = p ∧ j = i
      · obtain ⟨rfl, rfl⟩ := he
        simpa using hf hs
      · rcases not_and_or.mp he with he | he <;> simpa [he] using hlawful q j
    · rw [State.onInlet_session] at hlive
      have hzero := hs.notices q hlive
      by_cases he : q = p ∧ 0 = i
      · obtain ⟨rfl, rfl⟩ := he
        simpa using hopen rfl hzero
      · rcases not_and_or.mp he with he | he <;> simpa [he] using hzero
  | @session p f hlive =>
    refine hs.of_eq (fun q i => by simp) fun q hq => ?_
    by_cases he : q = p
    · subst he; exact hlive (by simpa using hq)
    · simpa [he] using hq
  | begins p c n =>
    refine .of_lawful (fun q i => ?_) fun q hlive => ?_
    · rw [State.beginSession_inlet]
      split
      · exact ⟨Nat.zero_le _, nofun⟩
      · exact hlawful q i
    · rw [State.beginSession_inlet]
      split
      · rfl
      · next hne =>
        rw [State.beginSession_session _ _ _ _ _ fun hq => hne ⟨hq, rfl⟩] at hlive
        exact hs.notices q hlive
  | @cleared p hdead =>
    refine .of_lawful (fun q i => ?_) fun q hlive => ?_
    · by_cases he : q = p
      · subst he; simpa [State.inlet] using Inlet.fresh_lawful i
      · simpa [State.onCol_inlet_ne, he] using hlawful q i
    · replace hlive : (s.session q).live := by simpa [State.onCol_session] using hlive
      have he : q ≠ p := fun he => hdead (he ▸ hlive)
      simpa [State.onCol_inlet_ne, he] using hs.notices q hlive
  | lanes p f =>
    have hinlets (q : Port) := State.onCol_keeps s p (g := fun c => { c with lanes := f c.lanes }) Column.inlets (fun _ => rfl) q
    exact hs.of_eq (fun q i => congrArg (Tab.get · i) (hinlets q)) fun q hq => by simpa [State.onCol_session] using hq
  | familyRevoked f =>
    exact hs.of_eq (TablesOnly.revokeFamily s f).inlet fun q hq => by rwa [(TablesOnly.revokeFamily s f).session q] at hq
  | windowRevoked w =>
    exact hs.of_eq (State.revokeWindow_inlet s w) fun q hq => by rwa [State.revokeWindow_session] at hq
  | started strap => exact hs.of_eq (fun _ _ => rfl) fun _ hq => hq
  | config x h => exact hs.of_eq (fun _ _ => rfl) fun _ hq => hq
  | bulk h1 h2 => exact hs.of_eq (fun _ _ => rfl) fun _ hq => hq
  | _ => exact hs.of_eq (fun q i => by simp) fun q hq => by simpa using hq

end

/-! ### The queue bound, canonical memory, the engine law -/

theorem Engine.fresh_law (timeout retryLimit : Nat) : EngineLaw (Engine.fresh timeout retryLimit) := ⟨rfl, rfl, rfl, rfl⟩

theorem Kept.queuesBounded (may : Leave) : Kept may State.queuesBounded where
  change := fun h hs q => h.queue q (hs q)
  follow := fun hu q => by rw [followAtn_ctl]; exact hu q
  quiet := by
    intro s p f hf hs q
    by_cases he : q = p
    · subst he; simpa [hf] using hs q
    · simpa [he] using hs q
  reset := fun {s} tag _ q => by simp [State.ctl, Column.systemReset, PortController.systemReset, PortController.fresh]
  halt := fun {s} hs q => by simpa [State.ctl, State.halt_col, Column.halt] using hs q

theorem Kept.memoryCanonical (may : Leave) : Kept may State.memoryCanonical where
  change := Change.memoryCanonical
  follow := fun hu => by rwa [State.memoryCanonical, followAtn_bulk]
  quiet := fun _ hs => hs
  reset := fun {s} tag hs => by rw [State.systemReset_part]; exact hs
  halt := fun hs => hs

theorem Kept.enginesLawful (may : Leave) : Kept may fun s => ∀ p, EngineLaw (s.engine p) where
  change := fun h hs q => h.engineLaw q (hs q)
  follow := fun hu q => by rw [followAtn_engine]; exact hu q
  quiet := fun _ hs q => by rw [State.onCtl_engine]; exact hs q
  reset := fun {s} tag _ q => by
    simp only [State.engine, State.systemReset_col, Column.systemReset]
    exact Engine.fresh_law _ _
  halt := fun {s} hs q => by simpa [State.engine, State.halt_col, Column.halt] using hs q

/-- Settles O52: each of the three laws is one that every change keeps. -/
theorem queuesMemoryAndEnginesKept : Obligations.QueuesMemoryAndEnginesKept := by
  unfold Obligations.QueuesMemoryAndEnginesKept
  intro s t h
  refine ⟨Kept.step Kept.queuesBounded (fun _ _ hs => hs) (fun s m _ _ q => ?_) h,
    Kept.step Kept.memoryCanonical (fun _ _ hs => hs) (fun s m hm hs => ?_) h,
    Kept.step Kept.enginesLawful (fun _ _ hs => hs) (fun s m _ _ q => ?_) h⟩
  · simp [State.ctl, Column.restart, Column.fresh, PortController.fresh]
  · rcases hm with rfl | rfl
    · rfl
    · exact hs
  · simp only [State.engine, State.restart_col, Column.restart]
    exact Engine.fresh_law _ _

/-! ### The inlet laws -/

theorem Session.fresh_not_live (generation : Nat) : ¬ (Session.fresh generation).live := by
  simp [Session.live, Session.fresh]

/-- Inlets and sessions at their reset values satisfy the inlet laws. -/
theorem InletLaw.fresh {t : State} (hinlets : ∀ q, (t.col q).inlets = freshInlets)
    (hsession : ∀ q, ∃ n, t.session q = Session.fresh n) : InletLaw t := by
  refine .of_lawful (fun q i => ?_) fun q hlive => ?_
  · rw [State.inlet, hinlets]
    exact Inlet.fresh_lawful i
  · obtain ⟨n, hn⟩ := hsession q
    exact absurd (hn ▸ hlive) (Session.fresh_not_live n)

theorem Kept.inletLaw (may : Leave) : Kept may InletLaw where
  change := Change.inletLaw
  follow := fun hu => hu.of_eq (fun q i => by simp) fun q hq => by simpa using hq
  quiet := fun _ hs => hs.of_eq (fun q i => by simp) fun q hq => by simpa using hq
  reset := fun {s} tag _ => .fresh (fun q => by simp [Column.systemReset])
    fun q => ⟨(s.session q).generation, by simp [State.session, Column.systemReset]⟩
  halt := fun {s} hs => hs.of_eq (fun q i => by simp [State.inlet, State.halt_col, Column.halt])
    fun q hq => by simpa [State.session, State.halt_col, Column.halt] using hq

/-- Settles O54: every change keeps the inlet laws, and a reset establishes them. -/
theorem inletLawsKept : Obligations.InletLawsKept := by
  unfold Obligations.InletLawsKept
  intro s t h
  refine Kept.step Kept.inletLaw (fun _ _ hs => hs.of_eq (fun _ _ => rfl) fun _ hq => hq) (fun s m _ _ => ?_) h
  exact .fresh (fun q => by simp [Column.restart, Column.fresh])
    fun q => ⟨0, by simp [State.session, Column.restart, Column.fresh]⟩

/-! ### A REVOKED family -/

/-- Family `f` has ended, or stands as `x`, its copy count apart. -/
def State.familyEndsOrKeeps (f : Fin 256) (x : Family) (s : State) : Prop :=
  s.family f = none ∨ ∃ y, s.family f = some y ∧ y = { x with copies := y.copies }

theorem State.familyEndsOrKeeps_of_eq {f : Fin 256} {x : Family} {s t : State} (h : t.family f = s.family f)
    (hs : s.familyEndsOrKeeps f x) : t.familyEndsOrKeeps f x := by
  rwa [State.familyEndsOrKeeps, h]

theorem Change.familyEndsOrKeeps {may : Leave} {s t : State} {f : Fin 256} {x : Family} (hx : x.state = .revoked)
    (hf : ¬ may.create f) (h : Change may s t) (hs : s.familyEndsOrKeeps f x) : t.familyEndsOrKeeps f x := by
  cases h with
  | @family g z hfollows =>
    by_cases he : f = g
    · subst he
      rw [State.familyEndsOrKeeps, State.setFamily_family_same]
      rcases hs with hnone | ⟨y, hy, hkeeps⟩
      · exact .inl (hfollows.free hnone)
      · rcases hfollows.revoked y hy (by rw [hkeeps]; exact hx) with hz | ⟨b, hb, hbkeeps⟩
        · exact .inl hz
        · exact .inr ⟨b, hb, by rw [hbkeeps, hkeeps]⟩
    · exact State.familyEndsOrKeeps_of_eq (by simp [he]) hs
  | @newFamily g z hg =>
    have he : f ≠ g := fun he => hf (he.symm ▸ hg)
    exact State.familyEndsOrKeeps_of_eq (State.setFamily_family_ne _ _ _ he) hs
  | familyRevoked g =>
    cases hfam : s.family g with
    | none =>
      have hsame : s.revokeFamily g = s := by simp [State.revokeFamily, hfam]
      rwa [hsame]
    | some y =>
      have hget : (s.revokeFamily g).family f = if f = g then some { y with state := .revoked } else s.family f := by
        rw [State.family, State.revokeFamily_part hfam]
        exact Tab.get_put _ _ _ _
      by_cases he : f = g
      · subst he
        rcases hs with hnone | ⟨z, hz, hkeeps⟩
        · cases hnone.symm.trans hfam
        · obtain rfl : z = y := by cases hz.symm.trans hfam; rfl
          refine .inr ⟨_, by rw [hget, if_pos rfl], ?_⟩
          rw [hkeeps]
          simp [hx]
      · exact State.familyEndsOrKeeps_of_eq (by rw [hget, if_neg he]) hs
  | windowRevoked w => exact State.familyEndsOrKeeps_of_eq (State.revokeWindow_family s w f) hs
  | _ => exact hs

/-- Settles O55: every change lets a family that is not FREE end or keep its fields, and only a FREE one is taken. -/
theorem revokedStaysRevoked : Obligations.RevokedStaysRevoked := by
  unfold Obligations.RevokedStaysRevoked
  intro i s t f x h hf hx
  have hkept : Kept (leaveOf i s) (State.familyEndsOrKeeps f x) :=
    { change := Change.familyEndsOrKeeps hx fun hfree => nomatch (hf.symm.trans hfree)
      follow := fun hu => State.familyEndsOrKeeps_of_eq (followAtn_family _ _ f) hu
      quiet := fun _ hs => hs
      reset := fun {u} tag _ => .inl (by rw [State.systemReset_part]; exact Tab.get_all _ f)
      halt := fun hs => hs }
  exact hkept.exec h (.inr ⟨x, hf, rfl⟩) (fun _ => .inl (Tab.get_all _ f)) fun _ => .inl (Tab.get_all _ f)

/-! ### The configuration -/

theorem Change.config_eq {may : Leave} {s t : State} (hmay : ¬ may.configure) (h : Change may s t) : t.config = s.config := by
  cases h with
  | config x hx => exact absurd hx hmay
  | begins p c n => exact (Calm.beginSession s p c n).config
  | familyRevoked f => exact (TablesOnly.revokeFamily s f).config
  | windowRevoked w => exact (Calm.revokeWindow s w).config
  | _ => rfl

/-- Settles O56: a change of the configuration needs the supervisor's leave. -/
theorem configurationIsTheSupervisors : Obligations.ConfigurationIsTheSupervisors := by
  unfold Obligations.ConfigurationIsTheSupervisors
  intro i s t h hon hpin hother
  have hmay : ¬ (leaveOf i s).configure := by
    rintro ⟨hsupervisor, hport⟩
    rcases hother with hother | hother
    · rw [hsupervisor] at hother; cases hother
    · exact hother hport
  have hkept : Kept (leaveOf i s) fun u => u.config = s.config :=
    { change := fun hc hu => (hc.config_eq hmay).trans hu
      follow := fun hu => (followAtn_config _ _).trans hu
      quiet := fun _ hu => hu
      reset := fun {u} tag hu => by rw [State.systemReset_part]; exact hu
      halt := fun hu => hu }
  exact hkept.exec h rfl (fun he => absurd he hon) fun he => absurd he hpin

/-! ### Bulk memory -/

theorem Change.read_eq {may : Leave} {s t : State} {a : Nat} (hmay : ¬ may.write a) (h : Change may s t) :
    Memory.read t.bulk a = Memory.read s.bulk a := by
  cases h with
  | bulk _ hwrite => exact of_not_not fun hne => hmay (hwrite a hne)
  | begins p c n => rw [(Calm.beginSession s p c n).bulk]
  | familyRevoked f => rw [(TablesOnly.revokeFamily s f).bulk]
  | windowRevoked w => rw [(Calm.revokeWindow s w).bulk]
  | _ => rfl

/-- Settles O57: a change of a byte needs the leave of a WRITE stream whose window holds it. -/
theorem bulkMemoryOnlyThroughAStream : Obligations.BulkMemoryOnlyThroughAStream := by
  unfold Obligations.BulkMemoryOnlyThroughAStream
  intro i s t a h hon hread
  by_cases hmay : (leaveOf i s).write a
  · obtain ⟨p, ⟨x, hx, hwrite, hbase, hlimit⟩, hi⟩ := hmay
    exact ⟨p, x, hx, hwrite, hbase, hlimit, hi⟩
  · have hkept : Kept (leaveOf i s) fun u => Memory.read u.bulk a = Memory.read s.bulk a :=
      { change := fun hc hu => (hc.read_eq hmay).trans hu
        follow := fun hu => by rwa [followAtn_bulk]
        quiet := fun _ hu => hu
        reset := fun {u} tag hu => by rw [State.systemReset_part]; exact hu
        halt := fun hu => hu }
    exact absurd (hkept.exec h rfl (fun he => absurd he hon) fun _ => rfl) hread

end Sys2Proof.Machine

/-! PROOFS. The attention lines (R117, R172): no change touches a line, so a line stands after a command as `atnNext` puts it, from what
drove it before and what drives it after. -/

namespace Sys2Proof.Machine

/-! ### The law of one line, and the line that follows -/

/-- The law of a line, in what drives it. -/
def AtnDrive.lawful (d : AtnDrive) (line : Atn) : Prop :=
  if d.live = false then line = .released
  else
    match d.session with
    | .vacant => line = .released
    | .dormant => line = if d.wake then .asserted else .released
    | .attached | .withdrawing =>
      match d.mode with
      | .level => line = if d.waiting then .asserted else .released
      | .pulse => line ≠ .asserted

theorem State.lineLaw_iff (s : State) (p : Port) : s.lineLaw p ↔ (s.atnDrive p).lawful (s.ctl p).atn := by
  have hlive : (s.rstnLow = true ∨ s.controller = .starting) ↔ (s.atnDrive p).live = false := by
    cases hr : s.rstnLow <;> cases hc : s.controller <;> simp [State.atnDrive, hr, hc]
  unfold State.lineLaw AtnDrive.lawful
  by_cases h : (s.atnDrive p).live = false
  · rw [if_pos h, if_pos (hlive.mpr h)]
  · rw [if_neg h, if_neg fun hlow => h (hlive.mp hlow)]
    rfl

theorem AtnDrive.lawful_released {d : AtnDrive} (h : d.live = false) : d.lawful .released := by
  simp [AtnDrive.lawful, h]

/-- A pulse runs in PULSE mode alone, where the released line is lawful too. -/
theorem AtnDrive.lawful_of_pulsing {d : AtnDrive} (h : d.lawful .pulsing) : d.lawful .released := by
  obtain ⟨live, session, wake, mode, waiting⟩ := d
  cases live with
  | false => cases h
  | true =>
    cases session with
    | vacant => cases h
    | dormant => cases wake <;> cases h
    | attached =>
      cases mode with
      | level => cases waiting <;> cases h
      | pulse => exact nofun
    | withdrawing =>
      cases mode with
      | level => cases waiting <;> cases h
      | pulse => exact nofun

theorem atnNext_lawful {before after : AtnDrive} {line : Atn} (h : before.lawful line) :
    after.lawful (atnNext before after line) := by
  unfold atnNext
  by_cases hsame : before = after
  · rw [if_pos hsame]; exact hsame ▸ h
  rw [if_neg hsame]
  by_cases hlive : after.live = false
  · rw [if_pos hlive]; exact AtnDrive.lawful_released hlive
  rw [if_neg hlive, AtnDrive.lawful, if_neg hlive]
  cases after.session with
  | vacant => rfl
  | dormant => rfl
  | attached =>
    cases after.mode with
    | level => rfl
    | pulse => dsimp only; split_ifs <;> nofun
  | withdrawing =>
    cases after.mode with
    | level => rfl
    | pulse => dsimp only; split_ifs <;> nofun

/-- In PULSE mode a pulse runs on, or begins as the waiting set fills (R172). -/
theorem atnNext_pulsing {before after : AtnDrive} {line : Atn} (hlive : after.live = true)
    (hsession : after.session = .attached ∨ after.session = .withdrawing) (hmode : after.mode = .pulse) :
    atnNext before after line = .pulsing ↔ line = .pulsing ∨ (before.waiting = false ∧ after.waiting = true) := by
  by_cases hsame : before = after
  · subst hsame
    have hwaiting : ¬ (before.waiting = false ∧ before.waiting = true) := by simp
    simp [hwaiting]
  · have hfollow : atnNext before after line =
        if line = .pulsing then .pulsing else if before.waiting = false ∧ after.waiting = true then .pulsing else .released := by
      rcases hsession with hs | hs <;> simp [atnNext, hsame, hlive, hs, hmode]
    rw [hfollow]
    by_cases hline : line = .pulsing
    · simp [hline]
    · by_cases hfills : before.waiting = false ∧ after.waiting = true <;> simp [hline, hfills]

/-! ### The lines after a command -/

theorem Change.atn {may : Leave} {s t : State} (h : Change may s t) (q : Port) : (t.ctl q).atn = (s.ctl q).atn := by
  cases h with
  | @ctl p f hatn _ =>
    by_cases he : q = p
    · subst he; simpa using hatn
    · simp [he]
  | lanes p f => simp [State.onCol_ctl]
  | cleared h => simp [State.onCol_ctl]
  | begins p c n => rw [(Calm.beginSession s p c n).ctl q]
  | familyRevoked f => rw [(TablesOnly.revokeFamily s f).ctl q]
  | windowRevoked w => rw [(Calm.revokeWindow s w).ctl q]
  | started strap => rfl
  | config x h => rfl
  | bulk h1 h2 => rfl
  | _ => simp

theorem Changes.atn {may : Leave} {s t : State} (h : Changes may s t) (q : Port) : (t.ctl q).atn = (s.ctl q).atn := by
  induction h with
  | refl => rfl
  | tail _ hc ih => exact (hc.atn q).trans ih

@[simp] theorem followAtn_atnDrive (s u : State) (q : Port) : (followAtn s u).atnDrive q = u.atnDrive q :=
  State.atnDrive_congr (by simp) (by simp) (by simp) (by simp) (by simp) (by simp [Column.waiting, State.ctl])

theorem followAtn_atn {may : Leave} {s u : State} (h : Changes may s u) (q : Port) :
    ((followAtn s u).ctl q).atn = atnNext (s.atnDrive q) (u.atnDrive q) (s.ctl q).atn := by
  rw [followAtn_ctl, h.atn q]

theorem State.atnDrive_halted {s : State} (h : s.rstnLow = true ∨ s.controller = .starting) (q : Port) :
    (s.atnDrive q).live = false := by
  rcases h with h | h <;> simp [State.atnDrive, h]

theorem State.linesLawful_of_released {s : State} (h : s.rstnLow = true ∨ s.controller = .starting)
    (hatn : ∀ q, (s.ctl q).atn = .released) : s.linesLawful := by
  intro q
  rw [State.lineLaw_iff, hatn q]
  exact AtnDrive.lawful_released (State.atnDrive_halted h q)

theorem State.systemReset_atn (s : State) (tag : Byte) (q : Port) : ((s.systemReset tag).ctl q).atn = .released := by
  simp [State.ctl, Column.systemReset, PortController.systemReset, PortController.fresh]

theorem State.systemReset_controller (s : State) (tag : Byte) : (s.systemReset tag).controller = .starting := by
  rw [State.systemReset_part]

theorem atnNext_released {before after : AtnDrive} (h : after.live = false) : atnNext before after .released = .released := by
  unfold atnNext
  split_ifs <;> rfl

theorem Ends.linesLawful {may : Leave} {s t : State} (h : Ends may s t) (hs : s.linesLawful) : t.linesLawful := by
  cases h with
  | still => exact hs
  | @quiet p f hatn hresponses =>
    intro q
    have hline := (State.lineLaw_iff s q).mp (hs q)
    rw [State.lineLaw_iff, State.onCtl_atnDrive s p hresponses q]
    by_cases he : q = p
    · subst he; simpa [hatn] using hline
    · simpa [he] using hline
  | follows h =>
    intro q
    rw [State.lineLaw_iff, followAtn_atnDrive, followAtn_atn h q]
    exact atnNext_lawful ((State.lineLaw_iff s q).mp (hs q))
  | @resets u tag h =>
    have hstarting := State.systemReset_controller u tag
    refine State.linesLawful_of_released (.inr ((followAtn_controller _ _).trans hstarting)) fun q => ?_
    rw [followAtn_ctl, State.systemReset_atn]
    exact atnNext_released (State.atnDrive_halted (.inr hstarting) q)

theorem State.restart_linesLawful (s : State) (m : List Host.Cell) : (s.restart m).linesLawful :=
  State.linesLawful_of_released (.inr rfl) fun q => by simp [State.ctl, Column.restart, Column.fresh, PortController.fresh]

theorem Runs.linesLawful {i : Instr} {s t : State} (h : Runs i s t) (hs : s.linesLawful) : t.linesLawful := by
  cases h with
  | ends _ _ hends => exact hends.linesLawful hs
  | powerOn => exact State.restart_linesLawful s _
  | pinReleased => exact State.restart_linesLawful s _
  | pinAsserted => exact State.linesLawful_of_released (.inl rfl) fun q => by simp [State.ctl, State.halt_col, Column.halt]
  | pulseEnded p _ =>
    intro q
    have hline := (State.lineLaw_iff s q).mp (hs q)
    rw [State.lineLaw_iff, State.atnDrive_atn]
    by_cases he : q = p
    · subst he
      rw [State.onCtl_ctl_same]
      dsimp only
      split
      · next hpulse => exact AtnDrive.lawful_of_pulsing (hpulse ▸ hline)
      · exact hline
    · rwa [State.onCtl_ctl_ne _ _ he]
  | halted => exact hs
  | byte h1 h2 => exact h2.linesLawful (h1.linesLawful hs)

/-! ### When a pulse runs -/

theorem State.waits_iff (s : State) (p : Port) : s.waits p ↔ (s.atnDrive p).waiting = true := by
  simp [State.waits, State.atnDrive, Column.waiting, State.ctl, State.engine]

/-- A pulse runs after a command that is no received byte exactly when it ran before and has not ended, or the waiting set filled. -/
theorem Runs.pulsing {i : Instr} {s t : State} {p : Port} (h : Runs i s t) (hbyte : ∀ q b, i ≠ .byteReceived q b)
    (hhigh : t.rstnLow = false) (hrunning : t.controller = .running)
    (hsession : (t.session p).state = .attached ∨ (t.session p).state = .withdrawing) (hmode : (t.settings p).atnMode = .pulse) :
    (t.ctl p).atn = .pulsing ↔ ((s.ctl p).atn = .pulsing ∧ i ≠ .atnPulseEnd p) ∨ (¬ s.waits p ∧ t.waits p) := by
  rw [State.waits_iff, State.waits_iff]
  have hsame (hatn : (t.ctl p).atn = (s.ctl p).atn) (hdrive : t.atnDrive p = s.atnDrive p) (hi : i ≠ .atnPulseEnd p) :
      (t.ctl p).atn = .pulsing ↔
        ((s.ctl p).atn = .pulsing ∧ i ≠ .atnPulseEnd p) ∨ (¬ (s.atnDrive p).waiting = true ∧ (t.atnDrive p).waiting = true) := by
    simp [hatn, hdrive, hi]
  cases h with
  | ends _ hpulse hends =>
    cases hends with
    | still => exact hsame rfl rfl (hpulse p)
    | @quiet q f hatn hresponses =>
      refine hsame ?_ (State.onCtl_atnDrive s q hresponses p) (hpulse p)
      by_cases he : p = q
      · subst he; simpa using hatn
      · simp [he]
    | @follows u hchanges =>
      have hlive : (u.atnDrive p).live = true := by
        simp only [followAtn_rstnLow, followAtn_controller] at hhigh hrunning
        simp [State.atnDrive, hhigh, hrunning]
      rw [followAtn_atnDrive, followAtn_atn hchanges, atnNext_pulsing hlive (by simpa [State.atnDrive] using hsession)
        (by simpa [State.atnDrive] using hmode)]
      simp [hpulse p]
    | @resets u tag _ =>
      rw [followAtn_controller, State.systemReset_controller] at hrunning
      cases hrunning
  | powerOn => cases hrunning
  | pinReleased => cases hrunning
  | pinAsserted => cases hhigh
  | pulseEnded q _ =>
    by_cases he : p = q
    · subst he
      rw [State.onCtl_ctl_same, State.atnDrive_atn]
      dsimp only
      split_ifs with hpulse <;> simp [hpulse]
    · refine hsame (by simp [he]) (State.atnDrive_atn s q p _) fun hi => he ?_
      cases hi; rfl
  | halted q hlow => rw [hlow] at hhigh; cases hhigh
  | byte => exact absurd rfl (hbyte _ _)

/-- Settles O53: after every command each line stands as `atnNext` puts it. -/
theorem linesStayLawful : Obligations.LinesStayLawful := by
  unfold Obligations.LinesStayLawful
  refine ⟨fun s t h hs => ?_, fun i s t p h hbyte hhigh hrunning hsession hmode => ?_⟩
  · unfold Machine.step at h
    split at h
    · cases h; exact hs
    · next c rest _ =>
      obtain ⟨u, hu, hrun⟩ := exec_runs c { s with pending := rest }
      cases hu.symm.trans h
      exact hrun.linesLawful hs
  · obtain ⟨u, hu, hrun⟩ := exec_runs i s
    cases hu.symm.trans h
    exact hrun.pulsing hbyte hhigh hrunning hsession hmode

/-! ### The laws at reset -/

theorem State.reset_col (q : Port) : State.reset.col q = Column.fresh false := Tab.get_all _ q

/-- Settles O51: every record stands at its reset value. -/
theorem lawsHoldAtReset : Obligations.LawsHoldAtReset := by
  unfold Obligations.LawsHoldAtReset
  refine ⟨fun q => ?_, rfl, State.linesLawful_of_released (.inr rfl) fun q => ?_, .fresh (fun q => ?_) fun q => ⟨0, ?_⟩, fun q => ?_⟩
  · simp [State.ctl, State.reset_col, Column.fresh, PortController.fresh]
  · simp [State.ctl, State.reset_col, Column.fresh, PortController.fresh]
  · simp [State.reset_col, Column.fresh]
  · simp [State.session, State.reset_col, Column.fresh]
  · rw [State.engine, State.reset_col]
    exact Engine.fresh_law _ _

end Sys2Proof.Machine

/-! PROOFS. The session requests on their own port (06): HELLO where it begins a session or is held, DORMANT and RESUME; the requests
that only report (STATUS, INLET_STATUS, ROUTE_INFO); and three small facts of the part. -/

namespace Sys2Proof.Machine

/-- Settles O1: `step` takes the front of the queue. -/
theorem stepRunsTheFrontCommand : Obligations.StepRunsTheFrontCommand := by
  unfold Obligations.StepRunsTheFrontCommand
  intro c rest s
  rfl

/-- Settles O44: the end of a running pulse. -/
theorem pulseEndsReleased : Obligations.PulseEndsReleased := by
  unfold Obligations.PulseEndsReleased
  intro s p hhigh hpulse
  rw [exec_atnPulseEnd p hhigh]
  exact congrArg _ (State.onCtl_congr s p (by rw [if_pos hpulse]))

/-- Settles O59: the CRC and the three bodies, computed. -/
theorem crcCheckValueAndSomeFrames : Obligations.CrcCheckValueAndSomeFrames := by
  unfold Obligations.CrcCheckValueAndSomeFrames
  exact ⟨by decide +kernel, by decide +kernel, by decide +kernel, by decide +kernel⟩

/-! ### A request whose answer is held -/

theorem State.taken_drive (s : State) (p q : Port) (h : q ≠ p) : (s.taken p).atnDrive q = s.atnDrive q :=
  ((Beside.setStream p none).drive _ q h).trans (State.drive_onCol s p _ q h)

/-- A request that closes the stream and is answered later: the block's state, the line of the port apart. -/
theorem takeRequest_held {k : RequestKind} {s u : State} {p : Port} {tag : Byte} {act : State → State × Answer}
    (hk : k.keepsStream = false) (h : s.takesRequests p) (hg : s.gate p k = none) (ha : act (s.taken p) = (u, .later))
    (hd : ∀ q, q ≠ p → u.atnDrive q = s.atnDrive q) : EqualButLine p u (takeRequest k p tag (some act) s) := by
  rw [takeRequest_later tag h hg (by rw [State.closeStream_closes hk]; exact ha)]
  exact followAtn_line s u p hd

/-! ### HELLO -/

/-- The column of a port where a session begins (R109 steps 1 to 5, R21). -/
def Column.begun (agentClass : Byte) (name : List Byte) (c : Column) : Column :=
  { c with
    session := { c.session with state := .attached, generation := nextByteNumber c.session.generation, agentClass := agentClass,
                                name := name, wakePending := false, lost := 0 }
    inlets := c.inlets.put 0 { Inlet.freshNotice with state := .opened }
    lanes := freshLanes }

theorem State.beginSession_eq (s : State) (p : Port) (agentClass : Byte) (name : List Byte) :
    s.beginSession p agentClass name = s.onCol p (Column.begun agentClass name) := by
  simp only [State.beginSession, State.onSession, State.onInlet, State.onCol_onCol]
  rfl

theorem exec_hello (p : Port) (tag c : Byte) {name : List Byte} (h : name.length = 16) (s : State) :
    exec (.hello p tag (.fields { agentClass := c, name := name })) s =
      .next (takeRequest .hello p tag (some (helloBlock p tag { agentClass := c, name := name })) s) := by
  rw [exec_request rfl rfl]
  simp [requestBlock, formOf, formHello, h]

theorem State.gate_hello (s : State) (p : Port) : s.gate p .hello = none := by
  simp [State.gate, sessionGate, privilegeGate, RequestKind.supervision]

section
variable {s : State} {p : Port} {tag : Byte} {f : HelloFields}

theorem helloBlock_vacant (h : (s.session p).state = .vacant) : helloBlock p tag f s =
    (s.onCol p (Column.begun f.agentClass f.name),
      .now .ok (.hello p (nextByteNumber (s.session p).generation) (decide (p = 0) && s.supervisor))) := by
  have hsession : ((s.onCol p (Column.begun f.agentClass f.name)).session p).generation =
      nextByteNumber (s.session p).generation := by
    simp [State.session, Column.begun]
  simp only [helloBlock, h, State.beginSession_eq, State.helloResult, hsession]
  rfl

theorem helloBlock_held (h : (s.session p).state = .withdrawing) (hheld : (s.session p).heldHello = none) :
    helloBlock p tag f s =
      (s.onSession p fun x => { x with heldHello := some { tag := tag, agentClass := f.agentClass, name := f.name } }, .later) := by
  simp only [helloBlock, h, hheld]

theorem helloBlock_busy (h : (s.session p).state = .withdrawing) (hheld : (s.session p).heldHello ≠ none) :
    helloBlock p tag f s = (s, .bare .busy) := by
  obtain ⟨x, hx⟩ := Option.ne_none_iff_exists'.mp hheld
  simp only [helloBlock, h, hx]

end

/-- Settles O2: HELLO on a VACANT and on a WITHDRAWING port. -/
theorem helloBeginsOrIsHeld : Obligations.HelloBeginsOrIsHeld := by
  unfold Obligations.HelloBeginsOrIsHeld
  intro s p tag c name htakes hname cmd generation
  have hcmd := exec_hello p tag c hname s
  refine ⟨fun hvacant => ⟨_, hcmd, ?_⟩, fun hwithdrawing => ⟨_, hcmd, ?_⟩⟩
  · have hblock : helloBlock p tag { agentClass := c, name := name } (s.taken p) =
        ((s.taken p).onCol p (Column.begun c name), .now .ok (.hello p generation (decide (p = 0) && s.supervisor))) := by
      rw [helloBlock_vacant (by simpa using hvacant), State.taken_session]
      rfl
    refine takeRequest_changed (k := .hello) _ rfl htakes (State.gate_hello s p) hblock (fun _ => rfl) (fun _ _ => rfl) ?_
    have hsession (r : Result) : (((s.answer p tag 0x01 .ok r).setStream p none).col p).session = s.session p :=
      (State.setStream_session _ p none p).trans (State.onCtl_session s p _ p)
    rw [State.onSession, State.onCol_onCol]
    refine State.onCol_congr _ p ?_
    simp only [Column.begun]
    rw [hsession]
    rfl
  · have hstate : ((s.taken p).session p).state = .withdrawing := by simpa using hwithdrawing
    split
    · next hheld =>
      refine takeRequest_held (k := .hello) rfl htakes (State.gate_hello s p)
        (helloBlock_held hstate (by rw [State.taken_session]; exact hheld)) fun q hq => ?_
      exact (State.drive_onCol _ p _ q hq).trans (State.taken_drive s p q hq)
    · next hheld =>
      exact takeRequest_answered (k := .hello) rfl htakes (State.gate_hello s p)
        (helloBlock_busy hstate (by simpa using hheld))

/-! ### DORMANT and RESUME -/

theorem takeRequest_onSession {k : RequestKind} {s : State} {p : Port} {tag : Byte} {act : State → State × Answer} {st : Status}
    {r : Result} {f : Session → Session} (hk : k.keepsStream = false) (h : s.takesRequests p) (hg : s.gate p k = none)
    (ha : act (s.taken p) = ((s.taken p).onSession p f, .now st r)) :
    EqualButLine p (((s.answer p tag k.code st r).setStream p none).onSession p f) (takeRequest k p tag (some act) s) :=
  takeRequest_changed _ hk h hg ha (fun _ => rfl) (fun _ _ => rfl) rfl

theorem dormantBlock_taken (s : State) (p : Port) : dormantBlock p () (s.taken p) =
    if (s.session p).state = .dormant then (s.taken p, .bare .already)
    else if (s.engine p).state = .idle then
      ((s.taken p).onSession p fun x => { x with state := .dormant, wakePending := false }, .bare .ok)
    else (s.taken p, .bare .busy) := by
  simp only [dormantBlock, State.taken_session, State.taken_engine]

theorem resumeBlock_taken (s : State) (p : Port) : resumeBlock p () (s.taken p) =
    if (s.session p).state = .dormant then
      ((s.taken p).onSession p fun x => { x with state := .attached, wakePending := false }, .bare .ok)
    else (s.taken p, .bare .already) := by
  simp only [resumeBlock, State.taken_session]

/-- Settles O4: each answer of DORMANT and RESUME. -/
theorem dormantAndResume : Obligations.DormantAndResume := by
  unfold Obligations.DormantAndResume
  intro s p tag h
  have hdormant := dormantBlock_taken s p
  have hresume := resumeBlock_taken s p
  have hg1 : s.gate p .dormant = none := State.gate_serves _ h rfl
  have hg2 : s.gate p .resume = none := State.gate_serves _ h rfl
  refine ⟨⟨_, exec_request rfl rfl s, ?_⟩, ⟨_, exec_request rfl rfl s, ?_⟩⟩
  · by_cases hstate : (s.session p).state = .dormant
    · rw [if_pos hstate] at hdormant ⊢
      exact takeRequest_answered (k := .dormant) rfl h.1 hg1 hdormant
    · rw [if_neg hstate] at hdormant ⊢
      by_cases hidle : (s.engine p).state = .idle
      · rw [if_pos hidle] at hdormant ⊢
        exact takeRequest_onSession (k := .dormant) rfl h.1 hg1 hdormant
      · rw [if_neg hidle] at hdormant ⊢
        exact takeRequest_answered (k := .dormant) rfl h.1 hg1 hdormant
  · by_cases hstate : (s.session p).state = .dormant
    · rw [if_pos hstate] at hresume ⊢
      exact takeRequest_onSession (k := .resume) rfl h.1 hg2 hresume
    · rw [if_neg hstate] at hresume ⊢
      exact takeRequest_answered (k := .resume) rfl h.1 hg2 hresume

/-! ### STATUS, INLET_STATUS, ROUTE_INFO -/

theorem routeSlot?_succ (i : Fin 63) : routeSlot? (i.val + 1) = some i := by
  simp [routeSlot?, fin?]

theorem exec_routeInfo (p : Port) (tag : Byte) (i : Fin 63) (s : State) : exec (.routeInfo p tag (.fields (i.val + 1))) s =
    .next (takeRequest .routeInfo p tag (some (routeInfoBlock p i)) s) := by
  rw [exec_request rfl rfl]
  simp [requestBlock, formOf, routeSlot?_succ]

theorem exec_inletStatus (p : Port) (tag : Byte) (i : Fin 16) (s : State) : exec (.inletStatus p tag (.fields i.val)) s =
    .next (takeRequest .inletStatus p tag (some (inletStatusBlock p i)) s) := by
  rw [exec_request rfl rfl]
  simp [requestBlock, formOf, fin?_val]

theorem State.taken_statusReport {s : State} {p : Port} (h : s.controller = .running) : (s.taken p).statusReport p =
    { port := p, controller := .running, session := (s.session p).state, generation := (s.session p).generation,
      supervisor := decide (p = 0) && s.supervisor, wakePending := (s.session p).wakePending,
      lost := (s.session p).lost, delivery := (s.engine p).state, number := (s.engine p).number } := by
  have hcontroller : (s.taken p).controller = .running := h
  simp only [State.statusReport, State.taken_session, State.taken_engine, hcontroller]
  rfl

theorem State.taken_inletReport (s : State) (p : Port) (i : Fin 16) : (s.taken p).inletReport p i =
    { inlet := i, state := (s.inlet p i).state, lane := (s.inlet p i).lane,
      mode := (s.lane p (s.inlet p i).lane).mode, depth := (s.inlet p i).depth, wake := (s.inlet p i).wake,
      length := (s.inlet p i).queue.length,
      headInDelivery := decide ((s.inlet p i).queue.head?.map Descriptor.lifecycle = some .inDelivery),
      headNumber := ((s.inlet p i).queue.head?.map Descriptor.messageNumber).getD 0,
      credit := (s.inlet p i).credit, refusedFull := (s.inlet p i).refusedFull } := by
  simp only [State.inletReport, State.taken_inlet, State.taken_lane]
  cases (s.inlet p i).queue <;> simp

theorem routeInfoBlock_noRoute {s : State} {p : Port} {i : Fin 63} (h : s.route p i = none) :
    routeInfoBlock p i s = (s, .bare .noRoute) := by
  simp only [routeInfoBlock, h]

theorem routeInfoBlock_ok {s : State} {p : Port} {i : Fin 63} {r : RouteCopy} {x : Family} (h : s.route p i = some r)
    (hx : s.family r.family = some x) : routeInfoBlock p i s = (s, .now .ok (.routeInfo (routeReport i r x))) := by
  simp only [routeInfoBlock, h, hx]

/-- Settles O5: each report read from the state in which the request has been taken. -/
theorem inspectionsReport : Obligations.InspectionsReport := by
  unfold Obligations.InspectionsReport
  intro s p tag h
  have hg {k : RequestKind} (hk : k.supervision = false) : s.gate p k = none := State.gate_serves k h hk
  refine ⟨⟨_, exec_request rfl rfl s, ?_⟩, fun i => ⟨_, exec_inletStatus p tag i s, ?_⟩, fun i hi => ?_,
    fun i r x hi hx => ⟨_, exec_routeInfo p tag i s, ?_⟩⟩
  · have block : statusBlock p () (s.taken p) = (s.taken p, .now .ok (.status ((s.taken p).statusReport p))) := rfl
    rw [State.taken_statusReport h.1.1.2.1] at block
    exact takeRequest_answered (k := .status) rfl h.1 (hg rfl) block
  · have block : inletStatusBlock p i (s.taken p) = (s.taken p, .now .ok (.inletStatus ((s.taken p).inletReport p i))) := rfl
    rw [State.taken_inletReport] at block
    exact takeRequest_answered (k := .inletStatus) rfl h.1 (hg rfl) block
  · exact turnsAway_of_block (k := .routeInfo) rfl h.1 (hg rfl) (exec_routeInfo p tag i s)
      (routeInfoBlock_noRoute ((State.taken_route s p p i).trans hi))
  · exact takeRequest_answered (k := .routeInfo) rfl h.1 (hg rfl) (routeInfoBlock_ok ((State.taken_route s p p i).trans hi) hx)

end Sys2Proof.Machine

/-! PROOFS. Frames that are no requests, and the port's own events (05, 09): the decrement test, a retry, stray acknowledgements, the
end of a transaction, an outbound frame shifted out, and the assembly of inbound bytes. -/

namespace Sys2Proof.Machine

/-! ### The decrement test -/

theorem CopyState.ne_reserved_iff (x : CopyState) : x ≠ .reserved ↔ x = .live ∨ x = .stale := by
  cases x <;> simp

theorem State.decrement_agent {s : State} {q : Port} {generation : Nat} {i : Fin 63} {serial : Nat} {r : RouteCopy}
    (hr : s.route q i = some r) (hvacant : (s.session q).state ≠ .vacant) (hgeneration : (s.session q).generation = generation)
    (hstate : r.state ≠ .reserved) (hserial : r.serial = serial) :
    s.decrement (.agent q generation i serial) = s.setRoute q i (some { r with outstanding := r.outstanding - 1 }) := by
  simp [State.decrement, hr, hvacant, hgeneration, hstate, hserial]

/-- Settles O35: each test of R13 in turn. -/
theorem decrementTestMatches : Obligations.DecrementTestMatches := by
  unfold Obligations.DecrementTestMatches
  intro s q generation i serial
  refine ⟨rfl, fun r hr hvacant hgeneration hstate hserial => ?_, fun hno => ?_⟩
  · exact State.decrement_agent hr hvacant hgeneration ((CopyState.ne_reserved_iff _).mpr hstate) hserial
  · unfold State.decrement
    dsimp only
    split
    · next hsession =>
      split
      · next r hr =>
        split
        · next hcopy =>
          exact absurd ⟨hsession.1, hsession.2, r, hr, (CopyState.ne_reserved_iff _).mp hcopy.1, hcopy.2⟩ hno
        · rfl
      · rfl
    · rfl

/-! ### Acknowledgements -/

theorem exec_ack {s : State} {p : Port} (n : Byte) (h : s.takesFrames p) :
    exec (.ack p n) s = .next (followAtn s ((s.noted p).takeAck p n)) := by
  change Host.Outcome.next (takeFrame p _ s) = _
  rw [takeFrame_taken _ h, State.noted_eq]

theorem exec_nak {s : State} {p : Port} (n : Byte) (h : s.takesFrames p) :
    exec (.nak p n) s = .next (followAtn s ((s.noted p).takeNak p n)) := by
  change Host.Outcome.next (takeFrame p _ s) = _
  rw [takeFrame_taken _ h, State.noted_eq]

theorem event_high {s : State} (act : State → State) (h : s.rstnLow = false) : event s act = followAtn s (act s) := by
  simp [event, h]

theorem exec_timerExpiry {s : State} {p : Port} (hhigh : s.rstnLow = false) (hsent : (s.engine p).state = .sent) :
    exec (.timerExpiry p) s = .next (followAtn s (s.retry p)) := by
  change Host.Outcome.next (event s _) = _
  rw [event_high _ hhigh]
  simp only [if_pos hsent]

@[simp] theorem State.noted_engine (s : State) (p q : Port) : (s.noted p).engine q = s.engine q := by simp [State.noted]

theorem State.noted_drive (s : State) (p q : Port) (h : q ≠ p) : (s.noted p).atnDrive q = s.atnDrive q :=
  State.drive_onCol s p _ q h

theorem State.retry_again {s : State} {p : Port} (h : (s.engine p).retries + 1 ≤ (s.engine p).retryLimit) :
    s.retry p = s.onEngine p fun e => { e with state := .presented, retries := e.retries + 1, timer := none } := by
  rw [State.retry, if_pos h]

theorem State.takeNak_matching {s : State} {p : Port} {n : Byte} (hsession : (s.session p).state ≠ .withdrawing)
    (hsent : (s.engine p).state = .sent) (hnumber : (s.engine p).number = n.toNat) : s.takeNak p n = s.retry p := by
  rw [State.takeNak, if_neg hsession, if_pos ⟨hsent, hnumber⟩]

theorem State.takeAck_matching {s : State} {p : Port} {n : Byte} {i : Fin 16} {d : Descriptor} {rest : List Descriptor}
    (hsession : (s.session p).state ≠ .withdrawing) (hbusy : (s.engine p).state ≠ .idle) (hnumber : (s.engine p).number = n.toNat)
    (hcurrent : (s.engine p).current = some i) (hqueue : (s.inlet p i).queue = d :: rest) : s.takeAck p n = s.complete p i d := by
  rw [State.takeAck, if_neg hsession, if_pos ⟨hbusy, hnumber⟩, State.current_eq hcurrent hqueue]

/-- Settles O37: both ways to a retry lead to the same one. -/
theorem retryPresentsAgain : Obligations.RetryPresentsAgain := by
  unfold Obligations.RetryPresentsAgain
  intro s p n hsent hlimit again
  refine ⟨fun htakes hsession hnumber => ⟨_, exec_nak n htakes, ?_⟩, fun hhigh => ⟨_, exec_timerExpiry hhigh hsent, ?_⟩⟩
  · rw [State.takeNak_matching (by simpa using hsession) (by simpa using hsent) (by simpa using hnumber),
      State.retry_again (by simpa using hlimit)]
    exact followAtn_line _ _ p fun q hq => (State.drive_onCol _ p _ q hq).trans (State.noted_drive s p q hq)
  · rw [State.retry_again hlimit]
    exact followAtn_line _ _ p (State.drive_onCol s p _)

/-- Settles O39: an acknowledgement that does not match is counted, or not even that. -/
theorem strayAcknowledgements : Obligations.StrayAcknowledgements := by
  unfold Obligations.StrayAcknowledgements
  intro s p n htakes stray
  have hstray : (s.noted p).stray p = stray := by
    simp [State.stray, State.count, State.noted, stray]
  have hline {u : State} (hu : u = stray) : EqualButLine p stray (followAtn s u) :=
    hu ▸ followAtn_line s stray p (State.drive_onCol s p _)
  have hignored : EqualButLine p (s.noted p) (followAtn s (s.noted p)) := followAtn_line _ _ p (State.noted_drive s p)
  refine ⟨fun hwithdrawing => ?_, fun hsession => ?_⟩
  · have hstate : ((s.noted p).session p).state = .withdrawing := by simpa using hwithdrawing
    refine ⟨⟨_, exec_ack n htakes, ?_⟩, ⟨_, exec_nak n htakes, ?_⟩⟩
    · rwa [State.takeAck, if_pos hstate]
    · rwa [State.takeNak, if_pos hstate]
  · have hstate : ((s.noted p).session p).state ≠ .withdrawing := by simpa using hsession
    refine ⟨fun hno => ⟨_, exec_ack n htakes, hline ?_⟩, fun hno => ⟨_, exec_nak n htakes, hline ?_⟩⟩
    · rw [State.takeAck, if_neg hstate, if_neg (by simpa [or_iff_not_imp_left] using hno), hstray]
    · rw [State.takeNak, if_neg hstate, if_neg (by simpa [or_iff_not_imp_left] using hno), hstray]

/-! ### The end of a transaction -/

theorem exec_transactionEnd {s : State} {p : Port} (hhigh : s.rstnLow = false) (h : s.inTransaction p = true) :
    exec (.transactionEnd p) s = .next (followAtn s (s.endTransaction p)) := by
  simp [exec, execTransactionEnd, hhigh, h]

theorem frameTag_getD (bytes : List Byte) : (frameTag bytes).getD 0 = if 5 ≤ bytes.length then bytes.getD 2 0 else 0 := by
  unfold frameTag
  split
  · rw [List.getD_eq_getElem?_getD]
  · rfl

/-- Settles O42: what stood under assembly at the end of the transaction. -/
theorem transactionEndCutsShort : Obligations.TransactionEndCutsShort := by
  unfold Obligations.TransactionEndCutsShort
  intro s p hhigh hrunning htransaction ended
  have hexec := exec_transactionEnd hhigh htransaction
  refine ⟨fun hassembly => ?_, fun bytes hassembly => ⟨_, hexec, ?_⟩⟩
  · have hend : s.endTransaction p = ended := by
      rcases hassembly with h | h <;> simp [State.endTransaction, h, ended]
    rw [hexec, hend, followAtn_same s ended fun q => State.onCtl_atnDrive s p rfl q]
  · have hend : s.endTransaction p = ended.frameFailed p (frameTag bytes) := by
      simp [State.endTransaction, hassembly, hrunning, ended]
    rw [hend, State.frameFailed_eq, frameTag_getD]
    exact followAtn_line s _ p fun q hq => (State.drive_onCol ended p _ q hq).trans (State.drive_onCol s p _ q hq)

/-! ### An outbound frame shifted out -/

theorem exec_frameShiftedOut {s : State} {p : Port} {o : Outbound} (hhigh : s.rstnLow = false)
    (ho : (s.ctl p).outbound = some o) (hprogress : o.progress < o.bytes.length) :
    exec (.frameShiftedOut p) s = .next (followAtn s ((s.setProgress p o o.bytes.length).frameOut p o.carried)) := by
  change Host.Outcome.next (event s _) = _
  rw [event_high _ hhigh]
  simp only [ho, if_pos hprogress]

/-- A response shifted out whole, as one change of the port's controller and one of its session (R124, R171). -/
theorem State.responseOut_eq (s : State) (p : Port) (n : Nat) : s.responseOut p n =
    (s.onCtl p fun c =>
      { c with
        responses := (s.ctl p).responses.drop 1 ++ (s.session p).heldAnswers.take (4 - ((s.ctl p).responses.drop 1).length)
        overrun := c.overrun - n }).onSession p fun x =>
      { x with heldAnswers := (s.session p).heldAnswers.drop (4 - ((s.ctl p).responses.drop 1).length) } := by
  simp only [State.responseOut, State.moveHeld, State.onCtl_ctl_same, State.onCtl_session, State.onCtl_onCtl, Config.responseQueue]
  exact congrArg (State.onSession · p _) (State.onCtl_congr s p rfl)

theorem State.setProgress_drive (s : State) (p : Port) (o : Outbound) (n : Nat) (q : Port) :
    (s.setProgress p o n).atnDrive q = s.atnDrive q := State.onCtl_atnDrive s p rfl q

/-- Settles O43: the outcome of each kind of frame. -/
theorem shiftedOutWhole : Obligations.ShiftedOutWhole := by
  unfold Obligations.ShiftedOutWhole
  intro s p o hhigh ho hprogress done
  have hstays {u : State} (hu : u = done) : followAtn s u = done := by
    rw [hu]
    exact followAtn_same s done fun q => State.setProgress_drive s p o _ q
  have hdone (q : Port) : done.session q = s.session q ∧ done.engine q = s.engine q ∧
      (done.ctl q).responses = (s.ctl q).responses := by
    refine ⟨State.onCtl_session s p _ q, State.onCtl_engine s p _ q, ?_⟩
    by_cases h : q = p
    · subst h; simp [done]
    · simp [done, h]
  obtain ⟨hsession, hengine, hresponses⟩ := hdone p
  have hout (c : Carried) : (s.setProgress p o o.bytes.length).frameOut p c = done.frameOut p c := rfl
  refine ⟨_, exec_frameShiftedOut hhigh ho hprogress, fun n hcarried => ?_, fun n hcarried hpresented hnumber => ?_,
    fun n hcarried hno => hstays ?_, fun hcarried => hstays ?_⟩
  · rw [hout, hcarried, State.frameOut, State.responseOut_eq, hsession, hresponses]
    refine followAtn_line s _ p fun q hq => ?_
    exact ((State.drive_onCol _ p _ q hq).trans (State.drive_onCol done p _ q hq)).trans (State.setProgress_drive s p o _ q)
  · rw [hout, hcarried, State.frameOut, State.deliverOut, hengine, if_pos ⟨hpresented, hnumber⟩]
    exact followAtn_line s _ p fun q hq => (State.drive_onCol done p _ q hq).trans (State.setProgress_drive s p o _ q)
  · rw [hout, hcarried, State.frameOut, State.deliverOut, hengine, if_neg (by simpa [or_iff_not_imp_left] using hno)]
  · rcases hcarried with h | h <;> rw [hout, h] <;> rfl

/-! ### The assembly of inbound bytes -/

/-- A frame spells a command that `runFrame` runs as `exec` does. -/
theorem runFrame_eq_exec {i : Instr} (h : (requestKind i).isSome = true ∨ (∃ p tag kind body, i = .unknownRequestKind p tag kind body) ∨
    (∃ p n, i = .ack p n) ∨ (∃ p n, i = .nak p n) ∨ ∃ p tag, i = .inboundFrameError p tag) (s : State) :
    runFrame i s = exec i s := by
  rcases h with h | ⟨p, tag, kind, body, rfl⟩ | ⟨p, n, rfl⟩ | ⟨p, n, rfl⟩ | ⟨p, tag, rfl⟩
  · cases i <;> cases h <;> rfl
  all_goals rfl

theorem requestKind_requestOf (k : RequestKind) (p : Port) (tag : Byte) (bs : List Byte) :
    requestKind (requestOf k p tag bs) = some k := by
  cases k <;> rfl

theorem runFrame_frameCommand (p : Port) (bytes : List Byte) (s : State) :
    runFrame (frameCommand p bytes) s = exec (frameCommand p bytes) s := by
  have hrequest (tag : Byte) (body : List Byte) : runFrame (requestCommand p tag body) s = exec (requestCommand p tag body) s := by
    unfold requestCommand
    split
    · rfl
    · split
      · exact runFrame_eq_exec (.inl (by rw [requestKind_requestOf]; rfl)) s
      · rfl
  unfold frameCommand
  dsimp only
  split
  · rfl
  split
  · exact hrequest _ _
  split
  · split <;> rfl
  split
  · split <;> rfl
  · rfl

theorem exec_byteReceived {s : State} {p : Port} {o : Outbound} (b : Byte) (hhigh : s.rstnLow = false)
    (ho : (s.ctl p).outbound = some o) : exec (.byteReceived p b) s = (followAtn s (s.shiftByte p)).takeByte p b := by
  simp [exec, execByteReceived, State.inTransaction, hhigh, ho]

theorem State.frameOut_assembly (s : State) (p : Port) (c : Carried) : ((s.frameOut p c).ctl p).assembly = (s.ctl p).assembly := by
  cases c with
  | idle => rfl
  | response n => simp [State.frameOut, State.responseOut_eq]
  | deliver n =>
    simp only [State.frameOut, State.deliverOut]
    split <;> simp
  | discarded => rfl

theorem State.shiftByte_assembly (s : State) (p : Port) : ((s.shiftByte p).ctl p).assembly = (s.ctl p).assembly := by
  unfold State.shiftByte
  split
  · split
    · dsimp only
      split
      · simp [State.frameOut_assembly, State.setProgress]
      · simp [State.setProgress]
    · rfl
  · rfl

/-- What the outbound byte of the same edges leaves (R156, R171). -/
theorem followAtn_shiftByte {s out : State} {p : Port} {o : Outbound} (hhigh : s.rstnLow = false)
    (ho : (s.ctl p).outbound = some o)
    (h : o.progress + 1 < o.bytes.length ∧
        out = s.onCtl p (fun c => { c with outbound := some { o with progress := o.progress + 1 } }) ∨
      o.progress + 1 = o.bytes.length ∧ exec (.frameShiftedOut p) s = .next out ∨
      o.bytes.length ≤ o.progress ∧ out = s) : followAtn s (s.shiftByte p) = out := by
  rcases h with ⟨hlt, rfl⟩ | ⟨heq, hexec⟩ | ⟨hle, he⟩
  · have hshift : s.shiftByte p = s.setProgress p o (o.progress + 1) := by
      simp only [State.shiftByte, ho, if_pos (Nat.lt_of_succ_lt hlt), if_neg (Nat.ne_of_lt hlt)]
    rw [hshift, followAtn_same s _ fun q => State.setProgress_drive s p o _ q]
    rfl
  · have hprogress : o.progress < o.bytes.length := heq ▸ Nat.lt_succ_self _
    have hshift : s.shiftByte p = (s.setProgress p o o.bytes.length).frameOut p o.carried := by
      simp only [State.shiftByte, ho, if_pos hprogress, if_pos heq]
      rw [heq]
    rw [exec_frameShiftedOut hhigh ho hprogress] at hexec
    rw [hshift]
    cases hexec
    rfl
  · have hshift : s.shiftByte p = s := by
      simp only [State.shiftByte, ho, if_neg (Nat.not_lt_of_le hle)]
    rw [hshift, followAtn_same s s fun _ => rfl, he]

/-- Settles O45: the outbound byte, and then each branch of the assembly. -/
theorem bytesAreAssembled : Obligations.BytesAreAssembled := by
  unfold Obligations.BytesAreAssembled
  intro s p b
  refine ⟨fun hnone => ?_, ?_⟩
  · rcases hnone with h | h <;> simp [exec, execByteReceived, State.inTransaction, h]
  · intro o out hhigh ho hout kept
    have hshift := followAtn_shiftByte hhigh ho hout
    have hassembly : (out.ctl p).assembly = (s.ctl p).assembly := by
      rw [← hshift, followAtn_ctl, State.shiftByte_assembly]
    rw [exec_byteReceived b hhigh ho, hshift, State.takeByte, hassembly]
    refine ⟨fun h => ?_, fun h => ?_, fun bytes h hshort => ?_, fun bytes h hheader => ?_⟩
    · rw [h]; rfl
    · simp only [h, Assembly.take]
      split_ifs <;> rfl
    · have hlen : (bytes ++ [b]).length < 5 := by rw [List.length_append, List.length_singleton]; omega
      simp only [h, Assembly.take, if_pos hlen]
      rfl
    · intro length
      have hlen : ¬ bytes.length + 1 < 5 := by omega
      have hlength : headerLength (bytes ++ [b]) = length := rfl
      have hall : (bytes ++ [b]).length = bytes.length + 1 := by simp
      have htag : frameTag (bytes ++ [b]) = (bytes ++ [b])[2]? := if_pos (hall ▸ Nat.le_of_not_lt hlen)
      simp only [h, Assembly.take, hall, if_neg hlen, hlength, htag, Config.frameBodyMax]
      by_cases hlong : 560 < length
      · simp only [if_pos hlong]
        rfl
      · by_cases hwhole : bytes.length + 1 = length + 7
        · simp only [if_neg hlong, if_pos hwhole]
          exact runFrame_frameCommand p _ out
        · simp only [if_neg hlong, if_neg hwhole]
          rfl

end Sys2Proof.Machine

/-! PROOFS. The completion of a sweep (06), the resets and the completion of start-up (10). -/

namespace Sys2Proof.Machine

/-! ### Answers of a completion -/

/-- A column with answers at the tail of its queue while there is room, the rest held (R124). -/
def Column.answered (rs : List Response) (c : Column) : Column :=
  { c with
    port := { c.port with responses := c.port.responses ++ rs.take (4 - c.port.responses.length) }
    session := { c.session with heldAnswers := c.session.heldAnswers ++ rs.drop (4 - c.port.responses.length) } }

theorem Column.answered_nil (c : Column) : c.answered [] = c := by
  simp [Column.answered]

/-- Answers given one after another are given together. -/
theorem Column.answered_answered (xs ys : List Response) (c : Column) :
    (c.answered xs).answered ys = c.answered (xs ++ ys) := by
  have hroom : 4 - (c.port.responses.length + (xs.take (4 - c.port.responses.length)).length) =
      4 - c.port.responses.length - xs.length := by
    rw [List.length_take]
    omega
  simp only [Column.answered, List.length_append, hroom, List.take_append, List.drop_append, List.append_assoc]

theorem State.answerOrHold_eq (s : State) (p : Port) (r : Response) : s.answerOrHold p r = s.onCol p (Column.answered [r]) := by
  unfold State.answerOrHold
  by_cases h : (s.ctl p).responses.length < Config.responseQueue
  · have hlt : (s.col p).port.responses.length < 4 := h
    obtain ⟨k, hroom⟩ : ∃ k, 4 - (s.col p).port.responses.length = k + 1 := ⟨_, (Nat.sub_add_cancel (Nat.sub_pos_of_lt hlt)).symm⟩
    rw [if_pos h, State.enqueue, State.onCtl]
    refine State.onCol_congr s p ?_
    have hnot : ¬ Config.responseQueue ≤ (s.col p).port.responses.length := Nat.not_le.mpr h
    simp [Column.answered, hroom, hnot]
  · have hroom : 4 - (s.col p).port.responses.length = 0 := Nat.sub_eq_zero_of_le (Nat.le_of_not_lt h)
    rw [if_neg h, State.onSession]
    refine State.onCol_congr s p ?_
    simp [Column.answered, hroom]

/-! ### The completion of a sweep -/

/-- A column as the completion leaves its session, before any answer (R123). -/
def Column.vacated (c : Column) : Column :=
  { c with session := { c.session with state := .vacant, agentClass := 0, name := List.replicate 16 0, sweep := none, heldBye := none,
                                       heldHello := none } }

/-- The answer of a held BYE (R112, R123). -/
def byeAnswer (tag : Byte) : Response := { tag := tag, kind := 0x02, status := .ok, result := .none }

/-- The answer of a held HELLO (R109, R123). -/
def State.helloAnswer (s : State) (p : Port) (tag : Byte) : Response :=
  { tag := tag, kind := 0x01, status := .ok,
    result := .hello p (nextByteNumber (s.session p).generation) (decide (p = 0) && s.supervisor) }

theorem State.completeSweep_vacant {s : State} {p : Port} (h : (s.session p).heldHello = none) : s.completeSweep p =
    s.onCol p fun c => c.vacated.answered ((s.session p).heldBye.map byeAnswer).toList := by
  cases hbye : (s.session p).heldBye with
  | none =>
    simp only [State.completeSweep, h, hbye, State.onSession]
    exact State.onCol_congr s p (Column.answered_nil _).symm
  | some tag =>
    simp only [State.completeSweep, h, hbye, State.onSession, State.answerOrHold_eq, State.onCol_onCol]
    rfl

theorem State.completeSweep_hello {s : State} {p : Port} {x : HeldHello} (h : (s.session p).heldHello = some x) :
    s.completeSweep p = s.onCol p fun c => (c.vacated.answered (((s.session p).heldBye.map byeAnswer).toList ++
      [s.helloAnswer p x.tag])).begun x.agentClass x.name := by
  have hanswer (u : State) (f : Column → Column) (hu : u = s.onCol p f) (hf : (f (s.col p)).session.generation =
      nextByteNumber (s.session p).generation) : u.helloResult p = (s.helloAnswer p x.tag).result := by
    subst hu
    simp only [State.helloResult, State.session, State.onCol_col_same, hf]
    rfl
  have hbegun (u : State) (rs : List Response) (hu : u = s.onCol p fun c => c.vacated.answered rs) :
      (u.beginSession p x.agentClass x.name).answerOrHold p
          { tag := x.tag, kind := RequestKind.hello.code, status := .ok,
            result := (u.beginSession p x.agentClass x.name).helloResult p } =
        s.onCol p fun c => (c.vacated.answered (rs ++ [s.helloAnswer p x.tag])).begun x.agentClass x.name := by
    subst hu
    rw [State.beginSession_eq, State.onCol_onCol, hanswer _ _ rfl rfl, State.answerOrHold_eq, State.onCol_onCol]
    refine State.onCol_congr s p ?_
    rw [← Column.answered_answered]
    rfl
  cases hbye : (s.session p).heldBye with
  | none =>
    simp only [State.completeSweep, h, hbye]
    exact hbegun _ [] (State.onCol_congr s p (Column.answered_nil _).symm)
  | some tag =>
    simp only [State.completeSweep, h, hbye]
    have hbye' : (s.onSession p fun x => { x with state := .vacant, agentClass := 0, name := List.replicate 16 0, sweep := none, heldBye := none, heldHello := none }).answerOrHold p (byeAnswer tag) = s.onCol p fun c => c.vacated.answered [byeAnswer tag] := by
      rw [State.answerOrHold_eq, State.onSession, State.onCol_onCol]
      rfl
    exact hbegun _ [byeAnswer tag] hbye'

theorem exec_sweepCompletion {s : State} {p : Port} (hhigh : s.rstnLow = false) (hstate : (s.session p).state = .withdrawing)
    (hsweep : (s.session p).sweep = some { routeTable := false, grantTable := false, inletTable := false }) :
    exec (.sweepCompletion p) s = .next (followAtn s (s.completeSweep p)) := by
  have hswept : s.swept p = true := by simp [State.swept, State.due, hstate, hsweep]
  change Host.Outcome.next (event s fun s => if s.swept p then s.completeSweep p else s) = _
  rw [event_high _ hhigh, if_pos hswept]

/-- Settles O48: with the bye's and the hello's answer given together, the completion is one change of the port's column. -/
theorem sweepCompletionAnswersWhatIsHeld : Obligations.SweepCompletionAnswersWhatIsHeld := by
  unfold Obligations.SweepCompletionAnswersWhatIsHeld
  intro s p hhigh hstate hsweep generation bye hello room answered
  refine ⟨_, exec_sweepCompletion hhigh hstate hsweep, ?_, ?_⟩
  · intro hnone
    have heq : s.completeSweep p = answered.onSession p fun x =>
        { x with state := .vacant, agentClass := 0, name := List.replicate 16 0 } := by
      rw [State.completeSweep_vacant hnone]
      simp only [answered, hello, hnone, State.onCtl, State.onSession, State.onCol_onCol]
      refine State.onCol_congr s p ?_
      simp only [Column.answered, Column.vacated, Option.map_none, Option.toList_none, List.append_nil]
      rfl
    rw [← heq, State.completeSweep_vacant hnone]
    exact followAtn_line s _ p (State.drive_onCol s p _)
  · intro x hx
    have heq : s.completeSweep p = (answered.onSession p fun y =>
        { y with state := .attached, generation := generation, agentClass := x.agentClass, name := x.name,
                 wakePending := false, lost := 0 }).onCol p fun y =>
        { y with
          inlets := y.inlets.put 0 { state := .opened, lane := 0, depth := 16, wake := true, queue := [], credit := 0,
                                     refusedFull := 0 }
          lanes := Tab.all 4 { mode := .push, lastServed := 15 } } := by
      rw [State.completeSweep_hello hx]
      simp only [answered, hello, hx, State.onCtl, State.onSession, State.onCol_onCol]
      refine State.onCol_congr s p ?_
      simp only [Column.answered, Column.vacated, Option.map_some, Option.toList_some]
      rfl
    rw [← heq, State.completeSweep_hello hx]
    exact followAtn_line s _ p (State.drive_onCol s p _)

/-! ### Resets and start-up -/

theorem freshInlets_get_eq (i : Fin 16) : freshInlets.get i =
    { state := .closed, lane := 0, depth := if i = 0 then 16 else 8, wake := decide (i = 0), queue := [], credit := 0,
      refusedFull := 0 } := by
  rw [Inlet.freshInlets_get]
  split_ifs with h <;> simp [Inlet.freshNotice, Inlet.fresh, Config.depthNotice, Config.depthDefault, h]

/-- Settles O49: a reset rebuilds every column from its fresh value, and the assertion of RSTN halts every column. -/
theorem resetsPutThePartInItsResetState : Obligations.ResetsPutThePartInItsResetState := by
  unfold Obligations.ResetsPutThePartInItsResetState
  intro s after
  have hrestart (m : List Host.Cell) : after m (s.restart m) := by
    refine ⟨rfl, fun q => ?_⟩
    have hcol : (s.restart m).col q = Column.fresh (s.ctl q).sel := State.restart_col s m q
    have hsettings : (s.restart m).settings q =
        { timeout := 20, retryLimit := 3, atnMode := .level, partitionBase := 0,
          partitionLength := if q = 0 then 262144 else 0 } := by
      change Configuration.fresh.ports.get q = _
      rw [Configuration.fresh, Tab.get_put]
      split_ifs <;> simp [PortSettings.fresh, Config.timeoutDefault, Config.retryDefault, Config.bulkBytes]
    refine ⟨hsettings, ?_, ?_, ?_, ?_, fun i => ?_, fun i => ?_, fun l => ?_, fun i => ?_⟩
    · simp [State.session, hcol, Column.fresh, Session.fresh]
    · simp [State.engine, hcol, Column.fresh, Engine.fresh, Config.timeoutDefault, Config.retryDefault]
    · simp [State.ctl, hcol, Column.fresh, PortController.fresh, Counters.zero]
    · simp [State.stream, hcol, Column.fresh]
    · simp [State.route, hcol, Column.fresh]
    · simp [State.grant, hcol, Column.fresh]
    · simp [State.lane, hcol, Column.fresh, freshLanes]
    · simp only [State.inlet, hcol, Column.fresh, freshInlets_get_eq]
  refine ⟨⟨_, rfl, hrestart []⟩, fun hlow => ⟨s.restart s.bulk, ?_, hrestart s.bulk⟩, _, rfl, rfl, State.halt_col s⟩
  change Host.Outcome.next (if s.rstnLow then _ else _) = _
  rw [if_pos hlow]

/-- Settles O50: the completion leaves the running state, with the pending answer at the tail of port 0. -/
theorem startupCompletes : Obligations.StartupCompletes := by
  unfold Obligations.StartupCompletes
  intro s strap hhigh hstarting hroom running
  have hexec : exec (.startupCompletion strap) s = .next (followAtn s (s.completeStartup strap)) := by
    change Host.Outcome.next (event s fun s => if s.controller = .starting then s.completeStartup strap else s) = _
    rw [event_high _ hhigh, if_pos hstarting]
  refine ⟨_, hexec, fun hnone => ?_, fun tag htag => ?_⟩
  · have heq : s.completeStartup strap = running := by simp only [State.completeStartup, hnone, running]
    rw [← heq]
    exact followAtn_lines s _
  · have heq : s.completeStartup strap = running.respond 0 tag 0x1C .ok (.systemReset strap) := by
      simp only [State.completeStartup, htag, running]
      rfl
    rw [← State.respond_eq (s := running) tag 0x1C .ok _ hroom, ← heq]
    exact followAtn_lines s _

/-- Settles O27: every column is its system reset, whose line is released and stays so while STARTING. -/
theorem systemResetClearsThePart : Obligations.SystemResetClearsThePart := by
  unfold Obligations.SystemResetClearsThePart
  intro s p tag h
  have hexec : exec (.systemReset p tag []) s = .next (followAtn s ((s.taken p).systemReset tag)) :=
    congrArg Host.Outcome.next (takeRequest_later tag h.1.1 (State.gate_supervised _ h) rfl)
  refine ⟨_, hexec, ?_, fun q => ?_⟩
  · rw [followAtn_part, State.systemReset_part]
    rfl
  · have hdead : (((s.taken p).systemReset tag).atnDrive q).live = false :=
      State.atnDrive_halted (.inr (State.systemReset_controller _ tag)) q
    have hcol : (followAtn s ((s.taken p).systemReset tag)).col q = ((s.taken p).col q).systemReset (s.settings q) := by
      have hatn : (((s.taken p).systemReset tag).ctl q).atn = .released := State.systemReset_atn _ tag q
      rw [followAtn_col, hatn, atnNext_released hdead]
      simp only [State.ctl, State.systemReset_col]
      rfl
    have hgeneration : ((s.taken p).col q).session.generation = (s.session q).generation :=
      congrArg Session.generation (State.taken_session s p q)
    have hport : ((s.taken p).col q).port.sel = (s.ctl q).sel ∧ ((s.taken p).col q).port.outbound = (s.ctl q).outbound := by
      change ((s.taken p).ctl q).sel = _ ∧ ((s.taken p).ctl q).outbound = _
      rw [State.taken_ctl]
      split_ifs <;> exact ⟨rfl, rfl⟩
    obtain ⟨hsel, houtbound⟩ := hport
    refine ⟨?_, ?_, ?_, ?_, fun i => ?_, fun i => ?_, fun l => ?_, fun i => ?_⟩
    · simp [State.session, hcol, Column.systemReset, Session.fresh, hgeneration]
    · simp [State.engine, hcol, Column.systemReset, Engine.fresh]
    · simp [State.ctl, hcol, Column.systemReset, PortController.systemReset, PortController.fresh, Counters.zero, hsel,
        houtbound, State.inTransaction]
      exact ⟨rfl, rfl⟩
    · simp [State.stream, hcol, Column.systemReset]
    · simp [State.route, hcol, Column.systemReset]
    · simp [State.grant, hcol, Column.systemReset]
    · simp [State.lane, hcol, Column.systemReset, freshLanes]
    · simp only [State.inlet, hcol, Column.systemReset, freshInlets_get_eq]

end Sys2Proof.Machine

/-! PROOFS. Numbers drawn (01: Numbering), and the choice of a message (05: Choosing a message). -/

namespace Sys2Proof.Machine

/-! ### A counter moved past what is in use -/

/-- Where a counter stands after some of its first 65535 steps: up to 65535, and on from 1. -/
theorem nextNumber_iterate (n : Nat) {j : Nat} (h : j < 65535) : nextNumber^[j] n =
    if j = 0 then n else if min n 65535 + j ≤ 65535 then n + j else min n 65535 + j - 65535 := by
  induction j with
  | zero => rfl
  | succ j ih =>
    rw [Function.iterate_succ_apply', ih (Nat.lt_of_succ_lt h), nextNumber, if_neg (Nat.succ_ne_zero j)]
    repeat' split
    all_goals omega

theorem nextNumber_iterate_ne (n : Nat) {i j : Nat} (hij : i < j) (hj : j < 65535) : nextNumber^[i] n ≠ nextNumber^[j] n := by
  rw [nextNumber_iterate n hj, nextNumber_iterate n (hij.trans hj)]
  split_ifs <;> omega

/-- The search passes values in use only, and ends at a free one unless its fuel does. -/
theorem advancePast_spec (used : List Nat) (fuel n : Nat) : ∃ k ≤ fuel, advancePast used fuel n = nextNumber^[k] n ∧
    (∀ j < k, nextNumber^[j] n ∈ used) ∧ (advancePast used fuel n ∈ used → k = fuel) := by
  induction fuel generalizing n with
  | zero => exact ⟨0, le_rfl, rfl, fun _ h => absurd h (Nat.not_lt_zero _), fun _ => rfl⟩
  | succ fuel ih =>
    by_cases hn : n ∈ used
    · obtain ⟨k, hk, heq, hpassed, hend⟩ := ih (nextNumber n)
      have hstep : advancePast used (fuel + 1) n = advancePast used fuel (nextNumber n) := by simp [advancePast, hn]
      rw [hstep]
      refine ⟨k + 1, Nat.succ_le_succ hk, heq, fun j hj => ?_, fun hin => congrArg (· + 1) (hend hin)⟩
      cases j with
      | zero => exact hn
      | succ j => exact hpassed j (Nat.lt_of_succ_lt_succ hj)
    · have hstop : advancePast used (fuel + 1) n = n := by simp [advancePast, hn]
      rw [hstop]
      exact ⟨0, Nat.zero_le _, rfl, fun _ h => absurd h (Nat.not_lt_zero _), fun hin => absurd hin hn⟩

/-- With fewer than 65535 values in use the search ends at a free one: it passes distinct values. -/
theorem advancePast_unused {used : List Nat} (h : used.length < 65535) (n : Nat) :
    advancePast used used.length n ∉ used ∧
      ∃ k, advancePast used used.length n = nextNumber^[k] n ∧ ∀ j < k, nextNumber^[j] n ∈ used := by
  obtain ⟨k, hk, heq, hpassed, hend⟩ := advancePast_spec used used.length n
  refine ⟨fun hin => ?_, k, heq, hpassed⟩
  have hlength : k = used.length := hend hin
  have hnodup : ((List.range (k + 1)).map fun j => nextNumber^[j] n).Nodup := by
    refine (List.nodup_range (n := k + 1)).map_on fun i hi j hj hsame => ?_
    have hi' : i < 65535 := (Nat.lt_succ_iff.mp (List.mem_range.mp hi)).trans_lt (hlength ▸ h)
    have hj' : j < 65535 := (Nat.lt_succ_iff.mp (List.mem_range.mp hj)).trans_lt (hlength ▸ h)
    by_contra hne
    rcases Nat.lt_or_gt_of_ne hne with hlt | hlt
    · exact nextNumber_iterate_ne n hlt hj' hsame
    · exact nextNumber_iterate_ne n hlt hi' hsame.symm
  have hsubset : ((List.range (k + 1)).map fun j => nextNumber^[j] n) ⊆ used := by
    intro v hv
    obtain ⟨j, hj, rfl⟩ := List.mem_map.mp hv
    rcases Nat.lt_succ_iff_lt_or_eq.mp (List.mem_range.mp hj) with hlt | rfl
    · exact hpassed j hlt
    · exact heq ▸ hin
  have hle := (hnodup.subperm hsubset).length_le
  rw [List.length_map, List.length_range] at hle
  omega

/-- Settles O60: both counters are moved past what is in use by the one search. -/
theorem drawnNumbersAreUnused : Obligations.DrawnNumbersAreUnused := by
  unfold Obligations.DrawnNumbersAreUnused
  refine fun s => ⟨fun h => ?_, fun h => ?_⟩
  · obtain ⟨hfree, k, heq, hpassed⟩ := advancePast_unused (used := s.descriptors.map (·.messageNumber))
      (by rwa [List.length_map]) s.store.nextMessage
    exact ⟨fun d hd hsame => hfree (List.mem_map.mpr ⟨d, hd, hsame⟩), ⟨k, heq, fun j hj => List.mem_map.mp (hpassed j hj)⟩, rfl⟩
  · obtain ⟨hfree, hreached⟩ := advancePast_unused h s.store.nextSerial
    exact ⟨hfree, hreached, rfl⟩

/-! ### The choice of a message -/

/-- What `find?` finds in an ascending list is the least that passes. -/
theorem find?_least {n : Nat} {q : Fin n → Bool} {b : Fin n} (h : (List.finRange n).find? q = some b) :
    q b = true ∧ ∀ a, q a = true → b ≤ a := by
  obtain ⟨hb, front, back, hsplit, hfront⟩ := List.find?_eq_some_iff_append.mp h
  refine ⟨hb, fun a ha => ?_⟩
  have hsorted : (front ++ b :: back).Pairwise (· < ·) := hsplit ▸ List.pairwise_lt_finRange n
  have hmem : a ∈ front ++ b :: back := hsplit ▸ List.mem_finRange a
  rcases List.mem_append.mp hmem with hin | hin
  · have := hfront a hin
    simp [ha] at this
  · rcases List.mem_cons.mp hin with rfl | hback
    · exact le_rfl
    · exact ((List.pairwise_cons.mp (List.pairwise_append.mp hsorted).2.1).1 a hback).le

theorem State.laneChoice_spec {s : State} {p : Port} {l : Fin 4} {i : Fin 16} (h : s.laneChoice p l = some i) :
    (s.candidate p i = true ∧ (s.inlet p i).lane = l) ∧ ∀ j, s.candidate p j = true → (s.inlet p j).lane = l →
      i - ((s.lane p l).lastServed + 1) ≤ j - ((s.lane p l).lastServed + 1) := by
  unfold State.laneChoice rotation at h
  rw [List.find?_map] at h
  obtain ⟨k, hk, rfl⟩ := Option.map_eq_some_iff.mp h
  obtain ⟨hgood, hleast⟩ := find?_least hk
  refine ⟨by simpa using hgood, fun j hj hlane => ?_⟩
  have := hleast (j - ((s.lane p l).lastServed + 1)) (by simp [hj, hlane])
  simpa using this

theorem State.laneChoice_none {s : State} {p : Port} {l : Fin 4} (h : s.laneChoice p l = none) {j : Fin 16}
    (hj : s.candidate p j = true) : (s.inlet p j).lane ≠ l := by
  unfold State.laneChoice rotation at h
  rw [List.find?_map, Option.map_eq_none_iff, List.find?_eq_none] at h
  have := h (j - ((s.lane p l).lastServed + 1)) (List.mem_finRange _)
  simpa [hj] using this

theorem State.candidate_iff (s : State) (p : Port) (j : Fin 16) : s.candidate p j = true ↔
    (s.inlet p j).state ≠ .closed ∧ (s.inlet p j).queue ≠ [] ∧
      ((s.lane p (s.inlet p j).lane).mode = .push ∨ 0 < (s.inlet p j).credit) := by
  simp [State.candidate, and_assoc]

/-- Settles O33: the lanes are tried in ascending order, and each lane's inlets in the order of their distance from the last
served. -/
theorem choiceIsTheNextOfTheLowestLane : Obligations.ChoiceIsTheNextOfTheLowestLane := by
  unfold Obligations.ChoiceIsTheNextOfTheLowestLane
  intro s p candidate
  have hiff (j : Fin 16) : s.candidate p j = true ↔ candidate j := s.candidate_iff p j
  refine ⟨fun l i h => ?_, fun h j hj => ?_⟩
  · obtain ⟨front, a, back, hsplit, ha, hfront⟩ := List.findSome?_eq_some_iff.mp h
    obtain ⟨i', hi', hpair⟩ := Option.map_eq_some_iff.mp ha
    obtain ⟨rfl, rfl⟩ := Prod.mk.inj hpair
    obtain ⟨⟨hgood, hlane⟩, hnext⟩ := State.laneChoice_spec hi'
    refine ⟨(hiff _).mp hgood, hlane, fun j hj => ?_, fun j hj hjl => hnext j ((hiff j).mpr hj) hjl⟩
    have hsorted : (front ++ a :: back).Pairwise (· < ·) := hsplit ▸ List.pairwise_lt_finRange 4
    have hmem : (s.inlet p j).lane ∈ front ++ a :: back := hsplit ▸ List.mem_finRange _
    rcases List.mem_append.mp hmem with hin | hin
    · exact absurd rfl (State.laneChoice_none (Option.map_eq_none_iff.mp (hfront _ hin)) ((hiff j).mpr hj))
    · rcases List.mem_cons.mp hin with heq | hback
      · exact heq.ge
      · exact ((List.pairwise_cons.mp (List.pairwise_append.mp hsorted).2.1).1 _ hback).le
  · have hnone := List.findSome?_eq_none_iff.mp h (s.inlet p j).lane (List.mem_finRange _)
    exact State.laneChoice_none (Option.map_eq_none_iff.mp hnone) ((hiff j).mpr hj) rfl

end Sys2Proof.Machine

/-! PROOFS. Copies that cease, deliveries offered, acknowledged and abandoned (03: Route requests; 05): each event is what its
statement writes out, and where no notice is called for only its own port's line can follow. -/

namespace Sys2Proof.Machine

/-! ### Which lines an event can move -/

/-- Every line but that of `p` is driven in `t` as in `s`. -/
def State.DrivesOnly (p : Port) (s t : State) : Prop := ∀ q, q ≠ p → t.atnDrive q = s.atnDrive q

theorem State.DrivesOnly.trans {p : Port} {s t u : State} (h : State.DrivesOnly p s t) (k : State.DrivesOnly p t u) :
    State.DrivesOnly p s u := fun q hq => (k q hq).trans (h q hq)

theorem TablesOnly.atnDrive {s t : State} (h : TablesOnly s t) (q : Port) : t.atnDrive q = s.atnDrive q := by
  refine State.atnDrive_congr h.rstnLow h.controller ?_ ?_ ?_ ?_
  · rw [State.settings, h.config, State.settings]
  · rw [h.session]
  · rw [h.session]
  · rw [h.columns q]
    rfl

theorem TablesOnly.drives {p : Port} {s t : State} (h : TablesOnly s t) : State.DrivesOnly p s t := fun q _ => h.atnDrive q

theorem State.onStore_drives (p : Port) (s : State) (f : Store → Store) : State.DrivesOnly p s (s.onStore f) := fun _ _ => rfl

theorem CopiesEnd.tables_reserved {p : Port} {reason : RouteDropReason} {s t : State} {es : List Enclosure}
    {calls : List NoticeCall} (h : CopiesEnd p reason Enclosure.isReserved s es calls t) : TablesOnly s t := by
  have := TablesOnly.freeReserved s p reason es
  rwa [h.freeReserved] at this

theorem CopiesEnd.tables_inTransit {p : Port} {reason : RouteDropReason} {s t : State} {es : List Enclosure}
    {calls : List NoticeCall} (h : CopiesEnd p reason Enclosure.isInTransit s es calls t) : TablesOnly s t := by
  have := TablesOnly.endEnclosures s p reason es
  rwa [h.endEnclosures] at this

theorem Settles.tables {p : Port} {s t : State} {es es' : List Enclosure} {calls : List NoticeCall}
    (h : Settles p s es es' calls t) : TablesOnly s t := by
  have := TablesOnly.settleAll s p es
  rwa [h.settleAll] at this

theorem Installs.tables {p : Port} {sender : Sender} {s t : State} {es : List Enclosure} {calls : List NoticeCall}
    (h : Installs p sender s es calls t) : TablesOnly s t := by
  have := TablesOnly.installAll s p sender es
  rwa [h.installAll] at this

/-- The lines follow: all of them, and only that of `p` where no notice is called for. -/
theorem followAtn_linesApart {p : Port} {calls : List NoticeCall} {s v : State} (h : calls = [] → State.DrivesOnly p s v) :
    LinesApart p calls v (followAtn s v) :=
  ⟨followAtn_lines s v, fun hnone => followAtn_line s v p (h hnone)⟩

theorem State.notifyAll_of_nil (s : State) {calls : List NoticeCall} (h : calls = []) : s.notifyAll calls = s := by
  subst h
  rfl

/-! ### DROP_ROUTE -/

theorem exec_dropRoute (p : Port) (tag : Byte) (i : Fin 63) (s : State) : exec (.dropRoute p tag (.fields (i.val + 1))) s =
    .next (takeRequest .dropRoute p tag (some (dropRouteBlock p i)) s) := by
  rw [exec_request rfl rfl]
  simp [requestBlock, formOf, routeSlot?_succ]

theorem dropRouteBlock_noRoute {s : State} {p : Port} {i : Fin 63} (h : s.route p i = none) :
    dropRouteBlock p i s = (s, .bare .noRoute) := by
  simp only [dropRouteBlock, h]

theorem dropRouteBlock_badState {s : State} {p : Port} {i : Fin 63} {r : RouteCopy} (h : s.route p i = some r)
    (hr : r.state = .reserved) : dropRouteBlock p i s = (s, .bare .badState) := by
  simp only [dropRouteBlock, h, hr, if_true]

theorem Family.lowered_copies (x : Family) : (x.lowered.elim 0 Family.copies) = x.copies - 1 := by
  unfold Family.lowered
  split_ifs with h
  · exact (Nat.sub_eq_zero_of_le h).symm
  · rfl

theorem dropRouteBlock_ok {s : State} {p : Port} {i : Fin 63} {r : RouteCopy} {x : Family} (h : s.route p i = some r)
    (hr : r.state ≠ .reserved) (hx : s.family r.family = some x) : dropRouteBlock p i s =
      (((s.setRoute p i none).setFamily r.family x.lowered).notifyAll (x.endCalls r.family p .dropped),
        .now .ok (.dropRoute r.family (x.copies - 1))) := by
  have hend := State.endCopy_eq (s := s.setRoute p i none) p .dropped hx
  have hcopies : ((s.setRoute p i none).setFamily r.family x.lowered).copies r.family = x.copies - 1 := by
    rw [State.copies, State.setFamily_family_same, ← x.lowered_copies]
    cases x.lowered <;> rfl
  simp only [dropRouteBlock, h, if_neg hr, hend, hcopies]

/-- Settles O8: the copy ends by the rule of a copy that ceases, and its notices are created before the answer is queued. -/
theorem dropRouteEndsACopy : Obligations.DropRouteEndsACopy := by
  unfold Obligations.DropRouteEndsACopy
  intro s p tag i h cmd
  have hgate : s.gate p .dropRoute = none := State.gate_serves _ h rfl
  refine ⟨fun hfree => ?_, fun r hr hreserved => ?_, ?_⟩
  · exact turnsAway_of_block (k := .dropRoute) rfl h.1 hgate (exec_dropRoute p tag i s)
      (dropRouteBlock_noRoute ((s.taken_route p p i).trans hfree))
  · exact turnsAway_of_block (k := .dropRoute) rfl h.1 hgate (exec_dropRoute p tag i s)
      (dropRouteBlock_badState ((s.taken_route p p i).trans hr) hreserved)
  · intro r x hr hstate hx calls
    refine ⟨_, exec_dropRoute p tag i s, ?_⟩
    have hblock := dropRouteBlock_ok ((s.taken_route p p i).trans hr) hstate (x := x) hx
    rw [takeRequest_served tag h.1 hgate hblock (by simp [State.taken_ctl])]
    refine followAtn_linesApart fun hnone => ?_
    rw [State.notifyAll_of_nil _ hnone]
    exact State.DrivesOnly.trans (s.taken_drive p)
      (((TablesOnly.setRoute _ p i none).trans (TablesOnly.setFamily _ r.family x.lowered)).drives.trans (State.drive_onCol _ p _))

/-! ### The end of a delivery -/

/-- The head of an inlet leaves it (R11, R12). -/
theorem State.messageGone_eq {s : State} {p : Port} {i : Fin 16} {d : Descriptor} {rest : List Descriptor}
    (h : (s.inlet p i).queue = d :: rest) : (s.takeOut p i d).decrement d.sender = s.messageGone p i d rest := by
  have herase : (s.onInlet p i fun x => { x with queue := x.queue.erase d }) = s.onInlet p i fun x => { x with queue := rest } := by
    refine State.onCol_congr s p ?_
    have hget : ((s.col p).inlets.get i).queue = d :: rest := h
    simp [hget]
  unfold State.takeOut State.messageGone
  rw [herase]

theorem State.messageGone_drives (s : State) (p : Port) (i : Fin 16) (d : Descriptor) (rest : List Descriptor) :
    State.DrivesOnly p s (s.messageGone p i d rest) := by
  have hqueue : State.DrivesOnly p s (s.onInlet p i fun x => { x with queue := rest }) := State.drive_onCol s p _
  exact hqueue.trans ((State.onStore_drives p _ _).trans (TablesOnly.decrement _ d.sender).drives)

/-- The engine left IDLE, a count raised and the inlet settled are one change of the port's column (R97, R100). -/
theorem State.deliveryOver_eq (s : State) (p : Port) (i : Fin 16) (f : Counters → Counters) :
    ((s.idleEngine p).count p f).settleDrain p i =
      (s.deliveryOver p i).onCtl p fun c => { c with counters := f c.counters } := by
  unfold State.idleEngine State.count State.settleDrain State.deliveryOver State.onEngine State.onCtl State.onInlet
  simp only [State.onCol_onCol, List.isEmpty_iff]

theorem State.deliveryOver_drives (s : State) (p : Port) (i : Fin 16) (g : PortController → PortController) :
    State.DrivesOnly p s ((s.deliveryOver p i).onCtl p g) :=
  State.DrivesOnly.trans (State.DrivesOnly.trans (State.drive_onCol s p _) (State.drive_onCol _ p _)) (State.drive_onCol _ p _)

/-! ### The matching ACK -/

theorem Installs.complete {s u : State} {p : Port} {i : Fin 16} {d : Descriptor} {rest : List Descriptor} {calls : List NoticeCall}
    (h : Installs p d.sender s d.enclosures calls u) (hqueue : (s.inlet p i).queue = d :: rest) : s.complete p i d =
    (((u.messageGone p i d rest).notifyAll calls).deliveryOver p i).onCtl p
      fun c => { c with counters := c.counters.addCompleted } := by
  have hqueue' : (u.inlet p i).queue = d :: rest := by rw [h.tables.inlet, hqueue]
  simp only [State.complete, h.installAll, State.messageGone_eq hqueue', State.deliveryOver_eq]

/-- Settles O34: the matching ACK is a completed delivery, from the state with the frame counted. -/
theorem ackReleasesTheMessage : Obligations.AckReleasesTheMessage := by
  unfold Obligations.AckReleasesTheMessage
  intro s p n i d rest htakes hsession hbusy hnumber hcurrent hqueue
  have hack : (s.noted p).takeAck p n = (s.noted p).complete p i d :=
    State.takeAck_matching (by simpa using hsession) (by simpa using hbusy) (by simpa using hnumber) (by simpa using hcurrent)
      (rest := rest) (by simpa [State.noted] using hqueue)
  refine ⟨_, exec_ack n htakes, fun calls u hinstalls => ?_⟩
  rw [hack, hinstalls.complete (rest := rest) (by simpa [State.noted] using hqueue)]
  refine followAtn_linesApart fun hnone => ?_
  rw [State.notifyAll_of_nil _ hnone]
  exact State.DrivesOnly.trans (s.noted_drive p) (hinstalls.tables.drives.trans
    ((State.messageGone_drives u p i d rest).trans (State.deliveryOver_drives _ p i _)))

/-! ### The retry above the limit -/

theorem State.retry_abandons {s u v : State} {p : Port} {i : Fin 16} {d : Descriptor} {rest : List Descriptor}
    {freed gone : List NoticeCall} (hlimit : (s.engine p).retryLimit < (s.engine p).retries + 1)
    (hcurrent : (s.engine p).current = some i) (hqueue : (s.inlet p i).queue = d :: rest)
    (hfreed : CopiesEnd p .abandoned Enclosure.isReserved s d.enclosures freed u)
    (hgone : CopiesEnd p .abandoned Enclosure.isInTransit (u.messageGone p i d rest) d.enclosures gone v) : s.retry p =
    ((v.notifyAll (freed ++ gone ++ d.undelivered .retryExhausted)).deliveryOver p i).onCtl p
      fun c => { c with counters := c.counters.addAbandoned } := by
  have hqueue' : (u.inlet p i).queue = d :: rest := by rw [hfreed.tables_reserved.inlet, hqueue]
  rw [← State.messageGone_eq hqueue'] at hgone
  have hdestroy := State.destroy_eq (cause := .abandonment) freed hgone
  unfold State.retry
  rw [if_neg (Nat.not_le.mpr hlimit), State.current_eq hcurrent hqueue]
  simp only [State.abandon, hfreed.freeReserved, hdestroy, State.deliveryOver_eq]
  rfl

/-- Where no notice is called for, an abandonment moves the line of its own port alone. -/
theorem State.abandoned_drives {s u v : State} {p : Port} {i : Fin 16} {d : Descriptor} {rest : List Descriptor}
    {freed gone : List NoticeCall} (g : PortController → PortController)
    (hfreed : CopiesEnd p .abandoned Enclosure.isReserved s d.enclosures freed u)
    (hgone : CopiesEnd p .abandoned Enclosure.isInTransit (u.messageGone p i d rest) d.enclosures gone v) :
    State.DrivesOnly p s ((v.deliveryOver p i).onCtl p g) :=
  hfreed.tables_reserved.drives.trans ((State.messageGone_drives u p i d rest).trans
    (hgone.tables_inTransit.drives.trans (State.deliveryOver_drives v p i g)))

/-- Settles O38: the NAK and the timer's expiry lead to the one abandonment, from the state with the frame counted and from the
state itself. -/
theorem abandonmentDestroysTheMessage : Obligations.AbandonmentDestroysTheMessage := by
  unfold Obligations.AbandonmentDestroysTheMessage
  intro s p n i d rest hsent hlimit hcurrent hqueue abandoned
  refine ⟨fun htakes hsession hnumber => ⟨_, exec_nak n htakes, ?_⟩, fun hhigh => ⟨_, exec_timerExpiry hhigh hsent, ?_⟩⟩
  · intro freed u gone v hfreed hgone calls
    have hretry := State.retry_abandons (s := s.noted p) (by simpa using hlimit) (by simpa using hcurrent)
      (by simpa [State.noted] using hqueue) hfreed hgone
    rw [State.takeNak_matching (by simpa using hsession) (by simpa using hsent) (by simpa using hnumber), hretry]
    refine followAtn_linesApart fun hnone => ?_
    rw [State.notifyAll_of_nil _ hnone]
    exact State.DrivesOnly.trans (s.noted_drive p) (State.abandoned_drives _ hfreed hgone)
  · intro freed u gone v hfreed hgone calls
    rw [State.retry_abandons hlimit hcurrent hqueue hfreed hgone]
    refine followAtn_linesApart fun hnone => ?_
    rw [State.notifyAll_of_nil _ hnone]
    exact State.abandoned_drives _ hfreed hgone

end Sys2Proof.Machine

/-! PROOFS. The first offer of a message, and a route installed by its acknowledgement (05). -/

namespace Sys2Proof.Machine

/-! ### The first offer -/

/-- The lane and inlet as the choice leaves them (R85 steps 3 and 4). -/
def State.served (s : State) (p : Port) (l : Fin 4) (i : Fin 16) : State :=
  (s.onLane p l fun x => { x with lastServed := i }).onInlet p i fun x =>
    { x with credit := if (s.lane p l).mode = .pull then x.credit - 1 else x.credit }

theorem State.serveLane_eq (s : State) (p : Port) (l : Fin 4) (i : Fin 16) : s.serveLane p l i = s.served p l i := by
  unfold State.serveLane State.served
  simp only [State.onLane_lane_same]
  split_ifs with h
  · rfl
  · refine (State.onCol_self _ p ?_).symm
    exact congrArg (fun x => { ((s.onLane p l fun x => { x with lastServed := i }).col p) with inlets := x })
      (Tab.put_get _ i)

theorem State.served_drives (s : State) (p : Port) (l : Fin 4) (i : Fin 16) : State.DrivesOnly p s (s.served p l i) :=
  State.DrivesOnly.trans (State.drive_onCol s p _) (State.drive_onCol _ p _)

theorem State.choose_eq {s : State} {p : Port} {l : Fin 4} {i : Fin 16} {d : Descriptor} {rest : List Descriptor}
    (hidle : (s.engine p).state = .idle) (hattached : (s.session p).state = .attached) (hchoice : s.choice p = some (l, i))
    (hqueue : (s.inlet p i).queue = d :: rest) : s.choose p = (s.served p l i).present p i d := by
  simp only [State.choose, hidle, hattached, hchoice, hqueue, State.offer, State.serveLane_eq, and_self, if_true]

theorem Settles.present {s u : State} {p : Port} {i : Fin 16} {d : Descriptor} {rest : List Descriptor} {settled : List Enclosure}
    {calls : List NoticeCall} (h : Settles p s d.enclosures settled calls u) (hqueue : (s.inlet p i).queue = d :: rest) :
    s.present p i d = ((u.onInlet p i fun x =>
      { x with queue := { d with lifecycle := .inDelivery, enclosures := settled } :: rest }).onEngine p fun _ =>
      { state := .presented, current := some i, number := nextByteNumber (s.engine p).number, retries := 0,
        timeout := (s.settings p).timeout, retryLimit := (s.settings p).retryLimit, timer := none,
        frame := some { number := nextByteNumber (s.engine p).number, inlet := i, sender := d.sender, label := d.label,
                        messageNumber := d.messageNumber, ret := d.ret, entries := settled,
                        body := d.body } }).notifyAll calls := by
  have hqueue' : (u.inlet p i).queue = d :: rest := by rw [h.tables.inlet, hqueue]
  have hhead (d' : Descriptor) : (u.onHead p i fun _ => d') = u.onInlet p i fun x => { x with queue := d' :: rest } := by
    rw [State.onHead_eq]
    refine State.onCol_congr u p ?_
    have hget : ((u.col p).inlets.get i).queue = d :: rest := hqueue'
    simp [hget]
  simp only [State.present, h.settleAll, hhead]
  rfl

/-- Settles O32: the choice serves its lane, and the presentation is what the settlement of the head's enclosures gives. -/
theorem choicePresentsTheHead : Obligations.ChoicePresentsTheHead := by
  unfold Obligations.ChoicePresentsTheHead
  intro s p l i d rest hhigh hidle hattached hchoice hqueue number served
  have hexec : exec (.deliveryChoice p) s = .next (followAtn s (s.choose p)) := congrArg Host.Outcome.next (event_high _ hhigh)
  refine ⟨_, hexec, fun settled calls u hsettles => ?_⟩
  have hqueue' : ((s.served p l i).inlet p i).queue = d :: rest := by simpa [State.served] using hqueue
  have hengine : (s.served p l i).engine p = s.engine p := by simp [State.served]
  have hpresent := Settles.present (s := s.served p l i) hsettles hqueue'
  rw [hengine] at hpresent
  rw [State.choose_eq hidle hattached hchoice hqueue, hpresent]
  refine followAtn_linesApart fun hnone => ?_
  rw [State.notifyAll_of_nil _ hnone]
  exact (State.served_drives s p l i).trans (hsettles.tables.drives.trans
    (State.DrivesOnly.trans (State.drive_onCol u p _) (State.drive_onCol _ p _)))

/-! ### A route installed -/

theorem State.decrement_family (s : State) (d : Sender) (f : Fin 256) : (s.decrement d).family f = s.family f := by
  unfold State.decrement
  repeat' split
  all_goals rfl

/-- The decrement test changes no more of a slot than its outstanding count. -/
theorem State.decrement_route (s : State) (d : Sender) (q : Port) (i : Fin 63) :
    ∃ n : Nat → Nat, (s.decrement d).route q i = (s.route q i).map fun r => { r with outstanding := n r.outstanding } := by
  have hsame : (s.route q i) = (s.route q i).map fun r => { r with outstanding := id r.outstanding } := by
    cases s.route q i <;> rfl
  unfold State.decrement
  split
  · exact ⟨id, hsame⟩
  · rename_i q' generation slot serial
    split
    · split
      · rename_i r hr
        split
        · by_cases hq : q = q' ∧ i = slot
          · obtain ⟨rfl, rfl⟩ := hq
            exact ⟨fun n => n - 1, by simp [hr]⟩
          · refine ⟨id, Eq.trans ?_ hsame⟩
            rcases not_and_or.mp hq with hne | hne
            · exact State.setRoute_route_ne s slot _ i hne
            · exact State.setRoute_route_other s q' q _ hne
        · exact ⟨id, hsame⟩
      · exact ⟨id, hsame⟩
    · exact ⟨id, hsame⟩

/-- A RESERVED slot installed is LIVE under an ACTIVE family and STALE under a REVOKED one (R42, R95). -/
theorem State.installRoute_fst {s : State} {p : Port} {f : Fin 256} {j : Fin 63} {r : RouteCopy} {x : Family} (sender : Sender)
    (mode : EnclosureMode) (hr : s.route p j = some r) (hx : s.family f = some x) : (s.installRoute p sender f mode j).1 =
    s.setRoute p j (some { r with state := if x.state = .active then .live else .stale }) := by
  simp only [State.installRoute, hx, hr]
  split_ifs <;> rfl

theorem State.deliveryOver_route (s : State) (p : Port) (i : Fin 16) (q : Port) (j : Fin 63) :
    (s.deliveryOver p i).route q j = s.route q j := by
  simp [State.deliveryOver]

theorem State.deliveryOver_family (s : State) (p : Port) (i : Fin 16) (f : Fin 256) :
    (s.deliveryOver p i).family f = s.family f := rfl

theorem State.deliveryOver_engine (s : State) (p : Port) (i : Fin 16) : (s.deliveryOver p i).engine p =
    { s.engine p with state := .idle, current := none, frame := none, retries := 0, timer := none } := by
  simp [State.deliveryOver]

/-- A delivery completed: what the installation leaves, the message gone, its notices created, the engine IDLE. -/
theorem State.complete_eq (s : State) (p : Port) (i : Fin 16) (d : Descriptor) : s.complete p i d =
    ((((((s.installAll p d.sender d.enclosures).1).takeOut p i d).decrement d.sender).notifyAll
      (s.installAll p d.sender d.enclosures).2).deliveryOver p i).onCtl p fun c => { c with counters := c.counters.addCompleted } := by
  rw [← State.deliveryOver_eq]
  rfl

/-- Settles O36: neither the release of the message nor the notices touch the installed slot's contents or its family. -/
theorem ackInstallsARoute : Obligations.AckInstallsARoute := by
  unfold Obligations.AckInstallsARoute
  intro s p n i d rest f mode rights quota j r x htakes hsession hbusy hnumber hcurrent hqueue henclosures hr hx
  have hack : (s.noted p).takeAck p n = (s.noted p).complete p i d :=
    State.takeAck_matching (by simpa using hsession) (by simpa using hbusy) (by simpa using hnumber) (by simpa using hcurrent)
      (rest := rest) (by simpa [State.noted] using hqueue)
  let installed : State := (s.noted p).setRoute p j (some { r with state := if x.state = .active then .live else .stale })
  have hinstall : ((s.noted p).installAll p d.sender d.enclosures).1 = installed := by
    rw [henclosures]
    exact State.installRoute_fst d.sender mode (by simpa [State.noted] using hr) hx
  obtain ⟨k, hk⟩ := State.decrement_route (installed.takeOut p i d) d.sender p j
  have hroute : (installed.takeOut p i d).route p j = some { r with state := if x.state = .active then .live else .stale } := by
    simp [State.takeOut, installed]
  have hfamily : ((installed.takeOut p i d).decrement d.sender).family f = some x := by
    rw [State.decrement_family]
    exact hx
  have hengine : ((installed.takeOut p i d).decrement d.sender).engine p = s.engine p := by
    rw [(TablesOnly.decrement _ d.sender).engine]
    simp [State.takeOut, installed]
  rw [hroute] at hk
  refine ⟨_, { r with state := if x.state = .active then .live else .stale, outstanding := k r.outstanding },
    exec_ack n htakes, ?_, rfl, rfl, rfl, rfl, rfl, ?_, ?_, ?_⟩ <;>
    rw [hack, State.complete_eq, hinstall]
  · rw [followAtn_route, State.onCtl_route, State.deliveryOver_route, (NoticesApart.notifyAll _ _).route, hk]
    rfl
  · rw [followAtn_family, State.onCtl_family, State.deliveryOver_family, (NoticesApart.notifyAll _ _).family, hfamily]
  · rw [followAtn_engine, State.onCtl_engine, State.deliveryOver_engine]
  · rw [followAtn_engine, State.onCtl_engine, State.deliveryOver_engine, (NoticesApart.notifyAll _ _).engine, hengine]

end Sys2Proof.Machine

/-! PROOFS. The start of a withdrawal: HELLO and BYE (06), EVICT (10). -/

namespace Sys2Proof.Machine

/-! ### Families and windows that lose copies and grants -/

/-- Every family and window of `t` is the one of `s`, its copy or grant count apart. -/
structure State.OnlyLowered (s t : State) : Prop where
  family : ∀ f y, t.family f = some y → ∃ x, s.family f = some x ∧ y = { x with copies := y.copies }
  window : ∀ w y, t.window w = some y → ∃ x, s.window w = some x ∧ y = { x with grants := y.grants }

theorem State.OnlyLowered.of_eq {s t : State} (hfamily : ∀ f, t.family f = s.family f) (hwindow : ∀ w, t.window w = s.window w) :
    State.OnlyLowered s t :=
  ⟨fun f y hy => ⟨y, (hfamily f).symm.trans hy, rfl⟩, fun w y hy => ⟨y, (hwindow w).symm.trans hy, rfl⟩⟩

theorem State.OnlyLowered.trans {s t u : State} (h : State.OnlyLowered s t) (k : State.OnlyLowered t u) :
    State.OnlyLowered s u := by
  refine ⟨fun f z hz => ?_, fun w z hz => ?_⟩
  · obtain ⟨y, hy, hzy⟩ := k.family f z hz
    obtain ⟨x, hx, hyx⟩ := h.family f y hy
    exact ⟨x, hx, by rw [hzy, hyx]⟩
  · obtain ⟨y, hy, hzy⟩ := k.window w z hz
    obtain ⟨x, hx, hyx⟩ := h.window w y hy
    exact ⟨x, hx, by rw [hzy, hyx]⟩

theorem Family.lowered_eq_some {x y : Family} (h : x.lowered = some y) : y = { x with copies := y.copies } := by
  unfold Family.lowered at h
  split_ifs at h
  cases h
  rfl

theorem Window.lowered_eq_some {x y : Window} (h : x.lowered = some y) : y = { x with grants := y.grants } := by
  unfold Window.lowered at h
  split_ifs at h
  cases h
  rfl

theorem State.OnlyLowered.setRoute (s : State) (p : Port) (i : Fin 63) (x : Option RouteCopy) :
    State.OnlyLowered s (s.setRoute p i x) := .of_eq (fun _ => rfl) fun _ => rfl

theorem State.OnlyLowered.setGrant (s : State) (p : Port) (i : Fin 8) (x : Option Grant) :
    State.OnlyLowered s (s.setGrant p i x) := .of_eq (fun _ => rfl) fun _ => rfl

theorem State.OnlyLowered.endCopy (s : State) (f : Fin 256) (p : Port) (reason : RouteDropReason) :
    State.OnlyLowered s (s.endCopy f p reason).1 := by
  cases hx : s.family f with
  | none =>
    have hsame : (s.endCopy f p reason).1 = s := by simp only [State.endCopy, State.lowerFamily, hx]
    rw [hsame]
    exact .of_eq (fun _ => rfl) fun _ => rfl
  | some x =>
    rw [State.endCopy_eq p reason hx]
    refine ⟨fun g y hy => ?_, fun w y hy => ⟨y, hy, rfl⟩⟩
    by_cases hg : g = f
    · subst hg
      rw [State.setFamily_family_same] at hy
      exact ⟨x, hx, Family.lowered_eq_some hy⟩
    · rw [State.setFamily_family_ne _ _ _ hg] at hy
      exact ⟨y, hy, rfl⟩

theorem State.OnlyLowered.lowerWindow (s : State) (w : Fin 32) : State.OnlyLowered s (s.lowerWindow w) := by
  cases hx : s.window w with
  | none =>
    have hsame : s.lowerWindow w = s := by simp only [State.lowerWindow, hx]
    rw [hsame]
    exact .of_eq (fun _ => rfl) fun _ => rfl
  | some x =>
    rw [State.lowerWindow_eq hx]
    refine ⟨fun f y hy => ⟨y, hy, rfl⟩, fun v y hy => ?_⟩
    by_cases hv : v = w
    · subst hv
      rw [State.setWindow_window_same] at hy
      exact ⟨x, hx, Window.lowered_eq_some hy⟩
    · rw [State.setWindow_window_ne _ _ _ hv] at hy
      exact ⟨y, hy, rfl⟩

theorem State.OnlyLowered.freeReserved (s : State) (p : Port) (reason : RouteDropReason) (es : List Enclosure) :
    State.OnlyLowered s (s.freeReserved p reason es).1 := by
  induction es generalizing s with
  | nil => exact .of_eq (fun _ => rfl) fun _ => rfl
  | cons e es ih =>
    cases e with
    | route f mode rights quota st =>
      cases st with
      | reserved i => exact (State.OnlyLowered.setRoute s p i none).trans ((State.OnlyLowered.endCopy _ f p reason).trans (ih _))
      | inTransit => exact ih s
      | dropped why => exact ih s
    | grant w mode rights st =>
      cases st with
      | reserved i => exact (State.OnlyLowered.setGrant s p i none).trans ((State.OnlyLowered.lowerWindow _ w).trans (ih _))
      | inTransit => exact ih s
      | dropped why => exact ih s

/-! ### The abort of the engine -/

/-- A port's inlet table changed. -/
def State.onInlets (s : State) (p : Port) (g : Tab 16 Inlet → Tab 16 Inlet) : State :=
  s.onCol p fun c => { c with inlets := g c.inlets }

theorem State.onInlets_session (s : State) (p : Port) (g : Tab 16 Inlet → Tab 16 Inlet) (q : Port) :
    (s.onInlets p g).session q = s.session q :=
  State.onCol_keeps s p (g := fun c => { c with inlets := g c.inlets }) Column.session (fun _ => rfl) q

theorem State.onInlets_engine (s : State) (p : Port) (g : Tab 16 Inlet → Tab 16 Inlet) (q : Port) :
    (s.onInlets p g).engine q = s.engine q :=
  State.onCol_keeps s p (g := fun c => { c with inlets := g c.inlets }) Column.engine (fun _ => rfl) q

/-- The abort of an engine that is not IDLE: copies cease, notices are created, the head of a queue changes, the engine is IDLE. -/
theorem State.abortEngine_busy {s : State} {p : Port} (h : (s.engine p).state ≠ .idle) :
    ∃ (u : State) (calls : List NoticeCall) (g : Tab 16 Inlet → Tab 16 Inlet), TablesOnly s u ∧ State.OnlyLowered s u ∧
      s.abortEngine p = ((u.notifyAll calls).onInlets p g).idleEngine p := by
  unfold State.abortEngine
  rw [if_neg h]
  cases hcurrent : s.current p with
  | none => exact ⟨s, [], id, .refl s, .of_eq (fun _ => rfl) fun _ => rfl, by rw [State.onInlets, State.onCol_self _ p rfl]; rfl⟩
  | some head =>
    obtain ⟨i, d⟩ := head
    refine ⟨_, (s.freeReserved p .withdrawn d.enclosures).2,
      fun t => t.put i { t.get i with queue := (t.get i).queue.modifyHead fun d => { d with lifecycle := .queued } }, TablesOnly.freeReserved s p .withdrawn d.enclosures,
      State.OnlyLowered.freeReserved s p .withdrawn _, ?_⟩
    simp only [State.onHead_eq]
    rfl

theorem State.abortEngine_idle {s : State} {p : Port} (h : (s.engine p).state = .idle) : s.abortEngine p = s := by
  rw [State.abortEngine, if_pos h]

theorem State.OnlyLowered.abortEngine (s : State) (p : Port) : State.OnlyLowered s (s.abortEngine p) := by
  by_cases h : (s.engine p).state = .idle
  · rw [State.abortEngine_idle h]
    exact .of_eq (fun _ => rfl) fun _ => rfl
  · obtain ⟨u, calls, g, -, hlowered, heq⟩ := State.abortEngine_busy h
    rw [heq]
    exact hlowered.trans (.of_eq (fun f => (NoticesApart.notifyAll u calls).family f) fun w =>
      (NoticesApart.notifyAll u calls).window w)

/-- The engine after its abort (R102). -/
theorem State.abortEngine_engine_same (s : State) (p : Port) : (s.abortEngine p).engine p =
    if (s.engine p).state = .idle then s.engine p
    else { s.engine p with state := .idle, current := none, frame := none, retries := 0, timer := none } := by
  split_ifs with h
  · rw [State.abortEngine_idle h]
  · obtain ⟨u, calls, g, htables, -, heq⟩ := State.abortEngine_busy h
    rw [heq, State.idleEngine, State.onEngine_engine_same, State.onInlets_engine, (NoticesApart.notifyAll u calls).engine,
      htables.engine]

theorem State.abortEngine_engine_ne (s : State) {p q : Port} (hq : q ≠ p) : (s.abortEngine p).engine q = s.engine q := by
  by_cases h : (s.engine p).state = .idle
  · rw [State.abortEngine_idle h]
  · obtain ⟨u, calls, g, htables, -, heq⟩ := State.abortEngine_busy h
    rw [heq, State.idleEngine, State.onEngine_engine_ne _ _ hq, State.onInlets_engine,
      (NoticesApart.notifyAll u calls).engine, htables.engine]

/-- The abort tells no session more than that a notice came. -/
theorem State.abortEngine_session (s : State) (p q : Port) : ((s.abortEngine p).session q).state = (s.session q).state ∧
    ((s.abortEngine p).session q).generation = (s.session q).generation := by
  by_cases h : (s.engine p).state = .idle
  · rw [State.abortEngine_idle h]
    exact ⟨rfl, rfl⟩
  · obtain ⟨u, calls, g, htables, -, heq⟩ := State.abortEngine_busy h
    have hsession : (s.abortEngine p).session q = (u.notifyAll calls).session q := by
      rw [heq, State.idleEngine, State.onEngine_session, State.onInlets_session]
    rw [hsession, (NoticesApart.notifyAll u calls).sessionFrame q, htables.session q]
    exact ⟨rfl, rfl⟩

/-- A port that hears no notice keeps its session through its engine's abort. -/
theorem State.abortEngine_session_deaf {s : State} {p : Port} (hs : (s.session p).state = .withdrawing) :
    (s.abortEngine p).session p = s.session p := by
  by_cases h : (s.engine p).state = .idle
  · rw [State.abortEngine_idle h]
  · obtain ⟨u, calls, g, htables, -, heq⟩ := State.abortEngine_busy h
    have hdeaf : (u.notifyAll calls).col p = u.col p := by
      refine State.notifyAll_deaf calls ?_ ?_ <;> rw [htables.session p, hs] <;> decide
    rw [heq, State.idleEngine, State.onEngine_session, State.onInlets_session, ← htables.session p]
    exact congrArg Column.session hdeaf

/-! ### What the start of a withdrawal leaves -/

theorem State.startWithdrawal_eq (s : State) (p : Port) (hello : Option HeldHello) (bye : Option Byte) :
    s.startWithdrawal p hello bye = ((s.cutOff p hello bye).abortEngine p).portCleared p := by
  have hcreated : createdBy p (s.session p).generation =
      fun x => decide (x.creator = p ∧ x.generation = (s.session p).generation) := by
    funext x
    simp [createdBy]
  simp only [State.startWithdrawal, State.revokeFamilies_active, State.revokeWindows_open, State.portShare_eq, hcreated]
  rfl

theorem State.familiesRevoked_col (s : State) (pick : Family → Bool) (q : Port) :
    ∃ routes, (s.familiesRevoked pick).col q = { s.col q with routes := routes } := ⟨_, Tab.get_map _ _ q⟩

theorem State.windowsRevoked_col (s : State) (pick : Window → Bool) (q : Port) :
    ∃ grants stream, (s.windowsRevoked pick).col q = { s.col q with grants := grants, stream := stream } :=
  ⟨_, _, Tab.get_map _ _ q⟩

/-- The cut changes, of a port, its session where it is the one that leaves, and its route slots, grant slots and stream. -/
theorem State.cutOff_col (s : State) (p : Port) (hello : Option HeldHello) (bye : Option Byte) (q : Port) :
    ∃ routes grants stream, (s.cutOff p hello bye).col q = { s.col q with
      session := if q = p then (s.session q).withdraw hello bye else s.session q
      routes := routes, grants := grants, stream := stream } := by
  obtain ⟨grants, stream, hwindows⟩ := State.windowsRevoked_col ((s.onSession p fun x => x.withdraw hello bye).familiesRevoked
    fun x => decide (x.creator = p ∧ x.generation = (s.session p).generation))
    (fun x => decide (x.owner = p ∧ x.generation = (s.session p).generation)) q
  obtain ⟨routes, hfamilies⟩ := State.familiesRevoked_col (s.onSession p fun x => x.withdraw hello bye)
    (fun x => decide (x.creator = p ∧ x.generation = (s.session p).generation)) q
  refine ⟨routes, grants, stream, hwindows.trans ?_⟩
  rw [hfamilies, State.onSession, State.onCol_col]
  split_ifs <;> rfl

theorem State.cutOff_engine (s : State) (p : Port) (hello : Option HeldHello) (bye : Option Byte) (q : Port) :
    (s.cutOff p hello bye).engine q = s.engine q := by
  obtain ⟨_, _, _, hcol⟩ := s.cutOff_col p hello bye q
  rw [State.engine, hcol]
  rfl

theorem State.cutOff_ctl (s : State) (p : Port) (hello : Option HeldHello) (bye : Option Byte) (q : Port) :
    (s.cutOff p hello bye).ctl q = s.ctl q := by
  obtain ⟨_, _, _, hcol⟩ := s.cutOff_col p hello bye q
  rw [State.ctl, hcol]
  rfl

theorem State.cutOff_session (s : State) (p : Port) (hello : Option HeldHello) (bye : Option Byte) (q : Port) :
    (s.cutOff p hello bye).session q = if q = p then (s.session q).withdraw hello bye else s.session q := by
  obtain ⟨_, _, _, hcol⟩ := s.cutOff_col p hello bye q
  rw [State.session, hcol]

/-- The families of the port and generation are REVOKED by the cut (R59). -/
theorem State.cutOff_family (s : State) (p : Port) (hello : Option HeldHello) (bye : Option Byte) (f : Fin 256) :
    (s.cutOff p hello bye).family f = (s.family f).map fun x =>
      if x.state = .active ∧ x.creator = p ∧ x.generation = (s.session p).generation then { x with state := .revoked } else x := by
  simp only [State.cutOff, State.windowsRevoked, State.familiesRevoked, State.family, Tab.get_map, State.onSession_families,
    decide_eq_true_eq]

/-- The windows of the port and generation are REVOKED by the cut (R145). -/
theorem State.cutOff_window (s : State) (p : Port) (hello : Option HeldHello) (bye : Option Byte) (w : Fin 32) :
    (s.cutOff p hello bye).window w = (s.window w).map fun x =>
      if x.state = .opened ∧ x.owner = p ∧ x.generation = (s.session p).generation then { x with state := .revoked } else x := by
  simp only [State.cutOff, State.windowsRevoked, State.familiesRevoked, State.window, Tab.get_map, State.onSession_windows,
    decide_eq_true_eq]

theorem State.portCleared_session (s : State) (p q : Port) : (s.portCleared p).session q = s.session q := by
  simp [State.portCleared]

theorem State.portCleared_engine (s : State) (p q : Port) : (s.portCleared p).engine q = s.engine q := by
  simp [State.portCleared]

theorem State.portCleared_ctl_ne (s : State) {p q : Port} (h : q ≠ p) : (s.portCleared p).ctl q = s.ctl q := by
  simp [State.portCleared, h]

theorem State.portCleared_part (s : State) (p : Port) : s.portCleared p = { s with columns := (s.portCleared p).columns } := rfl

theorem State.portCleared_family (s : State) (p : Port) (f : Fin 256) : (s.portCleared p).family f = s.family f := rfl

theorem State.portCleared_window (s : State) (p : Port) (w : Fin 32) : (s.portCleared p).window w = s.window w := rfl

/-! ### States equal but for the lines -/

section

variable {u t : State} (h : EqualButLines u t)

include h

theorem EqualButLines.session (q : Port) : t.session q = u.session q := by
  rw [State.session, h.2 q]
  rfl

theorem EqualButLines.engine (q : Port) : t.engine q = u.engine q := by
  rw [State.engine, h.2 q]
  rfl

theorem EqualButLines.stream (q : Port) : t.stream q = u.stream q := by
  rw [State.stream, h.2 q]
  rfl

theorem EqualButLines.ctl (q : Port) : t.ctl q = { u.ctl q with atn := (t.ctl q).atn } := by
  rw [State.ctl, h.2 q]

theorem EqualButLines.family (f : Fin 256) : t.family f = u.family f := by
  rw [State.family, h.1]
  rfl

theorem EqualButLines.window (w : Fin 32) : t.window w = u.window w := by
  rw [State.window, h.1]
  rfl

end

theorem EqualButLines.refl (s : State) : EqualButLines s s := ⟨rfl, fun _ => rfl⟩

/-- What the start of a withdrawal leaves, the lines apart (R118). -/
theorem withdrawalStarted_of_lines {s t : State} {p : Port} {hello : Option HeldHello} {bye : Option Byte}
    (h : EqualButLines (s.startWithdrawal p hello bye) t) : WithdrawalStarted s t p hello bye := by
  have hexact (u : State) (hu : Aborts p (s.cutOff p hello bye) u) : EqualButLines (u.portCleared p) t :=
    hu.startWithdrawal ▸ h
  rw [State.startWithdrawal_eq] at h
  have hlowered := State.OnlyLowered.abortEngine (s.cutOff p hello bye) p
  have hcalm := Calm.abortEngine (s.cutOff p hello bye) p
  have hcut : (s.cutOff p hello bye).session p = (s.session p).withdraw hello bye := by
    rw [State.cutOff_session, if_pos rfl]
  refine ⟨?_, fun f x y hx hy => ?_, fun w x y hx hy => ?_, ?_, ?_, ?_, ?_, fun q hq => ⟨?_, ?_, ?_, ?_⟩, ?_, hexact⟩
  · rw [h.session, State.portCleared_session, State.abortEngine_session_deaf (by rw [hcut]; rfl), hcut]
    rfl
  · rw [h.family, State.portCleared_family] at hy
    obtain ⟨x', hx', hy'⟩ := hlowered.family f y hy
    rw [State.cutOff_family, hx, Option.map_some] at hx'
    split_ifs at hx' ⊢
    all_goals
      cases hx'
      exact hy'
  · rw [h.window, State.portCleared_window] at hy
    obtain ⟨x', hx', hy'⟩ := hlowered.window w y hy
    rw [State.cutOff_window, hx, Option.map_some] at hx'
    split_ifs at hx' ⊢
    all_goals
      cases hx'
      exact hy'
  · rw [h.engine, State.portCleared_engine, State.abortEngine_engine_same, State.cutOff_engine]
  · rw [h.ctl]
    simp [State.portCleared]
  · rw [h.ctl]
    simp [State.portCleared]
  · rw [h.stream]
    simp [State.portCleared]
  · rw [h.session, State.portCleared_session, (State.abortEngine_session _ p q).1, State.cutOff_session, if_neg hq]
  · rw [h.session, State.portCleared_session, (State.abortEngine_session _ p q).2, State.cutOff_session, if_neg hq]
  · rw [h.engine, State.portCleared_engine, State.abortEngine_engine_ne _ hq, State.cutOff_engine]
  · rw [h.ctl, State.portCleared_ctl_ne _ hq, hcalm.ctl, State.cutOff_ctl]
  · rw [h.1, State.portCleared_part]
    change _ = (s.cutOff p hello bye).controller ∧ _ = (s.cutOff p hello bye).supervisor ∧ _ = (s.cutOff p hello bye).config ∧
      _ = (s.cutOff p hello bye).bulk
    rw [← hcalm.controller, ← hcalm.supervisor, ← hcalm.config, ← hcalm.bulk]
    exact ⟨rfl, rfl, rfl, rfl⟩

/-- A withdrawal keeps the counters and the assembly of every port. -/
theorem State.startWithdrawal_ctl (s : State) (p : Port) (hello : Option HeldHello) (bye : Option Byte) (q : Port) :
    ((s.startWithdrawal p hello bye).ctl q).counters = (s.ctl q).counters ∧
      ((s.startWithdrawal p hello bye).ctl q).assembly = (s.ctl q).assembly ∧
      (q ≠ p → ((s.startWithdrawal p hello bye).ctl q).responses = (s.ctl q).responses) := by
  rw [State.startWithdrawal_eq]
  have hkept : ((s.cutOff p hello bye).abortEngine p).ctl q = s.ctl q := by
    rw [(Calm.abortEngine (s.cutOff p hello bye) p).ctl, State.cutOff_ctl]
  by_cases hq : q = p
  · subst hq
    simp [State.portCleared, hkept]
  · rw [State.portCleared_ctl_ne _ hq, hkept]
    exact ⟨rfl, rfl, fun _ => rfl⟩

/-! ### The requests -/

/-- A session that stands withdraws by a HELLO (R110). -/
theorem helloBlock_withdraws {s : State} {p : Port} {tag : Byte} {f : HelloFields}
    (h : (s.session p).state = .attached ∨ (s.session p).state = .dormant) : helloBlock p tag f s =
      (s.startWithdrawal p (some { tag := tag, agentClass := f.agentClass, name := f.name }) none, .later) := by
  rcases h with h | h <;> simp only [helloBlock, h]

theorem exec_bye (p : Port) (tag : Byte) (s : State) : exec (.bye p tag []) s =
    .next (takeRequest .bye p tag (some (byeBlock p tag ())) s) := rfl

/-- A request that starts a withdrawal is counted and its frame has ended. -/
theorem withdrawal_counted (s : State) (p : Port) (hello : Option HeldHello) (bye : Option Byte) :
    ((followAtn s ((s.taken p).startWithdrawal p hello bye)).ctl p).counters = (s.ctl p).counters.addFrameIn ∧
      ((followAtn s ((s.taken p).startWithdrawal p hello bye)).ctl p).assembly = (s.ctl p).ended := by
  have hkept := (s.taken p).startWithdrawal_ctl p hello bye p
  rw [State.taken_ctl, if_pos rfl] at hkept
  simp only [followAtn_ctl, hkept, and_self]

/-- Settles O3: both requests are answered later, by the start of the withdrawal from the state with the request counted and its
stream closed. -/
theorem helloAndByeStartAWithdrawal : Obligations.HelloAndByeStartAWithdrawal := by
  unfold Obligations.HelloAndByeStartAWithdrawal
  intro s p tag c name hserves hname
  have hstands : ((s.taken p).session p).state = .attached ∨ ((s.taken p).session p).state = .dormant := by
    rw [State.taken_session]
    exact hserves.2
  have hhello := takeRequest_later (kind := .hello) tag hserves.1 (s.gate_hello p)
    (helloBlock_withdraws (s := s.taken p) (tag := tag) (f := { agentClass := c, name := name }) hstands)
  have hbye := takeRequest_later (kind := .bye) (act := byeBlock p tag ()) (s' := (s.taken p).startWithdrawal p none (some tag))
    tag hserves.1 (State.gate_serves _ hserves rfl) rfl
  refine ⟨⟨_, (exec_hello p tag c hname s).trans (congrArg _ hhello), withdrawalStarted_of_lines (followAtn_lines _ _),
    withdrawal_counted s p _ _⟩, ⟨_, (exec_bye p tag s).trans (congrArg _ hbye),
    withdrawalStarted_of_lines (followAtn_lines _ _), withdrawal_counted s p _ _⟩⟩

theorem formEvict_val {q : Port} (h : q ≠ 0) : formEvict q.val = some q := by
  have hval : q.val ≠ 0 := fun hzero => h (Fin.ext hzero)
  rw [formEvict, if_neg hval, fin?_val]

theorem exec_evict {q : Port} (p : Port) (tag : Byte) (h : q ≠ 0) (s : State) : exec (.evict p tag (.fields q.val)) s =
    .next (takeRequest .evict p tag (some (evictBlock q)) s) := by
  rw [exec_request rfl rfl]
  simp [requestBlock, formOf, formEvict_val h]

theorem evictBlock_withdraws {s : State} {q : Port} (h : (s.session q).state = .attached ∨ (s.session q).state = .dormant) :
    evictBlock q s = (s.startWithdrawal q none none, .bare .ok) := by
  rcases h with h | h <;> simp only [evictBlock, h]

theorem evictBlock_already {s : State} {q : Port} (h : (s.session q).state = .vacant ∨ (s.session q).state = .withdrawing) :
    evictBlock q s = (s, .bare .already) := by
  rcases h with h | h <;> simp only [evictBlock, h]

/-- Settles O25: on a port whose session stands the withdrawal starts with nothing held, and port 0 is answered. -/
theorem evictByState : Obligations.EvictByState := by
  unfold Obligations.EvictByState
  intro s p tag q hsupervised hq
  have hserves := hsupervised.1
  have hgate := State.gate_supervised .evict hsupervised
  have hpq : p ≠ q := fun hp => hq (hp.symm.trans hsupervised.2.1)
  refine ⟨fun hstands => ?_, fun hgone => ?_, ?_⟩
  · have hblock := evictBlock_withdraws (s := s.taken p) (q := q) (by rwa [State.taken_session])
    have hresponses : (((s.taken p).startWithdrawal q none none).ctl p).responses = (s.ctl p).responses := by
      rw [((s.taken p).startWithdrawal_ctl q none none p).2.2 hpq, State.taken_ctl, if_pos rfl]
    have hcounters : (((s.taken p).startWithdrawal q none none).ctl q).counters = (s.ctl q).counters := by
      rw [((s.taken p).startWithdrawal_ctl q none none q).1, State.taken_ctl, if_neg hpq.symm]
    have hrun := takeRequest_served tag hserves.1 hgate hblock hresponses
    refine ⟨_, (s.taken p).startWithdrawal q none none, (exec_evict p tag hq s).trans (congrArg _ hrun),
      withdrawalStarted_of_lines (.refl _), followAtn_lines _ _, ?_, ?_⟩
    · simp only [followAtn_ctl, State.onCtl_ctl_same, hresponses]
      rfl
    · simp only [followAtn_ctl, State.onCtl_ctl_ne _ _ hpq.symm, hcounters]
  · exact turnsAway_of_block (k := .evict) rfl hserves.1 hgate (exec_evict p tag hq s)
      (evictBlock_already (by rwa [State.taken_session]))
  · exact turnsAway_of_malformed (k := .evict) rfl hserves.1 rfl

end Sys2Proof.Machine

/-! PROOFS. The store's free cells, the notice generator (01: Descriptors and cells, Notices), and DROP_ROUTE's notice. -/

namespace Sys2Proof.Machine

/-! ### Free cells -/

/-- The search for free numbers finds as many as are wanted, with fuel for those and for the used numbers it can pass. -/
theorem lowestUnused_length {used : List Nat} {fuel n wanted : Nat}
    (h : (used.toFinset.filter (n ≤ ·)).card + wanted ≤ fuel) : (lowestUnused used fuel n wanted).length = wanted := by
  induction fuel generalizing n wanted with
  | zero => simpa [lowestUnused] using (Nat.le_zero.mp ((Nat.le_add_left _ _).trans h)).symm
  | succ fuel ih =>
    cases wanted with
    | zero => rfl
    | succ wanted =>
      have hsubset : used.toFinset.filter (n + 1 ≤ ·) ⊆ used.toFinset.filter (n ≤ ·) :=
        Finset.monotone_filter_right _ fun m _ hm => Nat.le_of_succ_le hm
      by_cases hn : n ∈ used
      · have hpassed : used.toFinset.filter (n + 1 ≤ ·) ⊂ used.toFinset.filter (n ≤ ·) :=
          Finset.ssubset_iff_subset_ne.mpr ⟨hsubset, fun heq => by
            have hin : n ∈ used.toFinset.filter (n + 1 ≤ ·) := heq ▸ by simp [hn]
            simp at hin⟩
        have := Finset.card_lt_card hpassed
        simpa [lowestUnused, hn] using ih (n := n + 1) (wanted := wanted + 1) (by omega)
      · have := Finset.card_le_card hsubset
        simpa [lowestUnused, hn] using ih (n := n + 1) (wanted := wanted) (by omega)

theorem State.freeCellNumbers_length (s : State) (k : Nat) : (s.freeCellNumbers k).length = k := by
  refine lowestUnused_length (Nat.add_le_add_right ?_ k)
  exact (Finset.card_filter_le _ _).trans (List.toFinset_card_le _)

theorem fillCells_length (ns : List Nat) (bytes : List Byte) : (fillCells ns bytes).length = ns.length := by
  induction ns generalizing bytes with
  | nil => rfl
  | cons n ns ih => simp [fillCells, ih]

/-- A body that fits its cells is read back from them (R3). -/
theorem fillCells_bytes {ns : List Nat} {bytes : List Byte} (h : bytes.length ≤ 32 * ns.length) :
    (fillCells ns bytes).flatMap BodyCell.bytes = bytes := by
  induction ns generalizing bytes with
  | nil => simpa [fillCells] using (List.eq_nil_of_length_eq_zero (Nat.le_zero.mp h)).symm
  | cons n ns ih =>
    have hrest : (bytes.drop Config.cellBytes).length ≤ 32 * ns.length := by
      rw [List.length_cons] at h
      rw [List.length_drop, Config.cellBytes]
      omega
    rw [fillCells, List.flatMap_cons, ih hrest, List.take_append_drop]

theorem State.fillDescriptor_cells (s : State) (m : NewMessage) :
    (s.fillDescriptor m).cells.length = (m.body.length + 31) / 32 := by
  rw [State.fillDescriptor, fillCells_length, State.freeCellNumbers_length, cellsFor]

/-! ### The notice generator -/

theorem Notice.bytes_length (n : Notice) (lost : Nat) : (n.bytes lost).length = 16 := by
  cases n <;> rfl

/-- The message a notice becomes (R14). -/
def State.noticeMessage (s : State) (c : NoticeCall) : Descriptor :=
  { number := s.freeDescriptor, messageNumber := s.drawMessage.1, sender := .controller, targetPort := c.port, targetInlet := 0,
    ret := false, label := 0, lifecycle := .queued, enclosures := [], bodyLength := 16,
    cells := fillCells (s.freeCellNumbers 1) (c.notice.bytes (s.session c.port).lost) }

theorem State.noticeMessage_body (s : State) (c : NoticeCall) :
    (s.noticeMessage c).body = c.notice.bytes (s.session c.port).lost := by
  refine fillCells_bytes ?_
  rw [Notice.bytes_length, State.freeCellNumbers_length]
  omega

/-- A notice created: a descriptor, a cell and a number taken, the message at the tail of inlet 0, the losses told (R14, R17,
R24). -/
def State.noticed (s : State) (c : NoticeCall) : State :=
  ((s.onStore fun x =>
      { x with nextMessage := nextNumber s.drawMessage.1, freeDescriptors := x.freeDescriptors - 1,
               freeCells := x.freeCells - 1 }).onInlet c.port 0 fun x =>
    { x with queue := x.queue ++ [s.noticeMessage c] }).onSession c.port fun x =>
      { x with
        lost := 0
        wakePending := if (s.session c.port).state = .dormant ∧ (s.inlet c.port 0).wake = true then true else x.wakePending }

theorem State.addNotice_eq (s : State) (c : NoticeCall) : s.addNotice c = s.noticed c := by
  have hmessage : s.drawMessage.2.fillDescriptor
      { messageNumber := s.drawMessage.1, sender := .controller, targetPort := c.port, targetInlet := 0, ret := false, label := 0,
        enclosures := [], body := c.notice.bytes (s.session c.port).lost } = s.noticeMessage c := by
    simp only [State.fillDescriptor, Notice.bytes_length]
    rfl
  have hcells : (s.noticeMessage c).cells.length = 1 := by
    rw [State.noticeMessage, fillCells_length, State.freeCellNumbers_length]
  unfold State.addNotice State.noticed
  simp only [State.place_eq]
  rw [hmessage, hcells]
  simp only [State.onSession, State.onInlet, State.onCol_onCol]
  exact State.onCol_congr _ c.port rfl

theorem State.notify_deaf {s : State} {c : NoticeCall} (h : ¬ ((s.session c.port).live ∧ (s.session c.port).generation = c.generation)) :
    s.notify c = s := by
  rw [State.notify, if_neg (fun hears => h ((s.hears_iff c).mp hears))]

theorem State.notify_created {s : State} {c : NoticeCall}
    (h : (s.session c.port).live ∧ (s.session c.port).generation = c.generation)
    (hroom : 1 ≤ s.store.freeDescriptors ∧ 1 ≤ s.store.freeCells ∧ (s.inlet c.port 0).queue.length < (s.inlet c.port 0).depth) :
    s.notify c = s.noticed c := by
  rw [State.notify, if_pos ((s.hears_iff c).mpr h), if_pos ((s.noticeRoom_iff c.port).mpr hroom), State.addNotice_eq]

theorem State.notify_lost {s : State} {c : NoticeCall}
    (h : (s.session c.port).live ∧ (s.session c.port).generation = c.generation)
    (hroom : ¬ (1 ≤ s.store.freeDescriptors ∧ 1 ≤ s.store.freeCells ∧ (s.inlet c.port 0).queue.length < (s.inlet c.port 0).depth)) :
    s.notify c = s.loseNotice c := by
  rw [State.notify, if_pos ((s.hears_iff c).mpr h), if_neg (fun room => hroom ((s.noticeRoom_iff c.port).mp room))]

/-- The copy that ends is not the last, and its ACTIVE family notifies DROPPED: one notice is called for (R46, R47). -/
theorem Family.endCalls_dropped {x : Family} {f : Fin 256} {p : Port} {reason : RouteDropReason} (hactive : x.state = .active)
    (hnotify : x.notify.dropped = true) (hcopies : 1 < x.copies) :
    x.endCalls f p reason = [x.call (.routeDropped f p reason)] := by
  have hlast : ¬ (x.copies ≤ 1 ∧ x.state = .active ∧ x.kind = .ordinary) := fun h => Nat.not_le.mpr hcopies h.1
  rw [Family.endCalls, if_pos ⟨hactive, hnotify⟩, if_neg hlast, List.append_nil]

theorem State.noticed_queue (s : State) (c : NoticeCall) :
    ((s.noticed c).inlet c.port 0).queue = (s.inlet c.port 0).queue ++ [s.noticeMessage c] := by
  simp [State.noticed]

theorem State.noticed_lost (s : State) (c : NoticeCall) : ((s.noticed c).session c.port).lost = 0 := by
  simp [State.noticed]

/-- DROP_ROUTE of a copy that is not the last reaches the family's creator (R15, R47). -/
theorem dropRoute_notifies {s : State} {p : Port} (tag : Byte) {i : Fin 63} {r : RouteCopy} {x : Family} (h : s.serves p)
    (hr : s.route p i = some r) (hstate : r.state ≠ .reserved) (hx : s.family r.family = some x) (hactive : x.state = .active)
    (hnotify : x.notify.dropped = true) (hcopies : 1 < x.copies)
    (hheard : (s.session x.creator).live ∧ (s.session x.creator).generation = x.generation)
    (hroom : 1 ≤ s.store.freeDescriptors ∧ 1 ≤ s.store.freeCells ∧
      (s.inlet x.creator 0).queue.length < (s.inlet x.creator 0).depth) :
    ∃ t d, exec (.dropRoute p tag (.fields (i.val + 1))) s = .next t ∧
      (t.inlet x.creator 0).queue = (s.inlet x.creator 0).queue ++ [d] ∧ d.sender = .controller ∧ d.ret = false ∧
      d.label = 0 ∧ d.enclosures = [] ∧ d.body = (Notice.routeDropped r.family p .dropped).bytes (s.session x.creator).lost ∧
      (t.session x.creator).lost = 0 ∧ t.store.freeDescriptors = s.store.freeDescriptors - 1 ∧
      t.store.freeCells = s.store.freeCells - 1 := by
  let v : State := ((s.taken p).setRoute p i none).setFamily r.family x.lowered
  let c : NoticeCall := x.call (.routeDropped r.family p .dropped)
  have hsession : v.session c.port = s.session c.port := by simp [v]
  have hinlet : v.inlet c.port 0 = s.inlet c.port 0 := by simp [v]
  have hnotified : v.notifyAll (x.endCalls r.family p .dropped) = v.noticed c := by
    rw [Family.endCalls_dropped hactive hnotify hcopies]
    exact State.notify_created (s := v) (c := c) (by rw [hsession]; exact hheard) (by rw [hinlet]; exact hroom)
  have hblock := dropRouteBlock_ok ((s.taken_route p p i).trans hr) hstate (x := x) hx
  have hresponses : ((v.notifyAll (x.endCalls r.family p .dropped)).ctl p).responses = (s.ctl p).responses := by
    simp [v, State.taken_ctl]
  have hrun := takeRequest_served tag h.1 (State.gate_serves .dropRoute h rfl) hblock hresponses
  rw [hnotified] at hrun
  refine ⟨_, v.noticeMessage c, (exec_dropRoute p tag i s).trans (congrArg _ hrun), ?_, rfl, rfl, rfl, rfl, ?_, ?_, ?_, ?_⟩
  · rw [followAtn_inlet, State.onCtl_inlet]
    exact (v.noticed_queue c).trans (by rw [hinlet]; rfl)
  · rw [State.noticeMessage_body, hsession]
    rfl
  · rw [followAtn_session, State.onCtl_session]
    exact v.noticed_lost c
  · rw [followAtn_store, State.onCtl_store]
    rfl
  · rw [followAtn_store, State.onCtl_store]
    rfl

/-- Settles O9: a call is unheard, lost or created; the bytes are read off each kind; DROP_ROUTE makes the one call. -/
theorem dropRouteNotifiesTheCreator : Obligations.DropRouteNotifiesTheCreator := by
  unfold Obligations.DropRouteNotifiesTheCreator
  refine ⟨?_, ?_, ?_, ?_⟩
  · intro s c q heard room number d
    exact ⟨State.notify_deaf, State.notify_lost, fun hheard hroom => ⟨s.noticeMessage_body c, State.notify_created hheard hroom⟩⟩
  · intro lost n f q q' i
    refine ⟨rfl, rfl, fun why code h => ?_, rfl, fun why code h => ?_⟩
    · cases why <;> simp at h <;> subst h <;> rfl
    · cases why <;> simp at h <;> subst h <;> rfl
  · refine fun d why => ⟨fun h => ?_, fun q generation i serial hsender hret => ?_⟩
    · rcases h with hcontroller | hret
      · simp only [Descriptor.undelivered, hcontroller]
      · cases hsender : d.sender <;> simp [Descriptor.undelivered, hsender, hret]
    · simp only [Descriptor.undelivered, hsender, hret, if_true]
  · intro s p tag i r x h hr hstate hx hactive hnotify hcopies hlive hgeneration hdescriptors hcells hroom
    exact dropRoute_notifies tag h hr hstate hx hactive hnotify hcopies ⟨hlive, hgeneration⟩ ⟨hdescriptors, hcells, hroom⟩

end Sys2Proof.Machine

/-! PROOFS. SEND: the state a request is taken from, the checks, and the admission (04). -/

namespace Sys2Proof.Machine

/-! ### What a taken request leaves as it was -/

theorem State.descriptors_congr {s t : State} (hinlets : ∀ q, (t.col q).inlets = (s.col q).inlets) :
    t.descriptors = s.descriptors := by
  have hcells (u : State) : u.columns.cells = (List.finRange 8).map u.col := Tab.cells_eq_map_get u.columns
  simp only [State.descriptors, hcells, List.flatMap_map, Column.descriptors, hinlets]

theorem State.taken_descriptors (s : State) (p : Port) : (s.taken p).descriptors = s.descriptors :=
  State.descriptors_congr (State.taken_keeps s p Column.inlets (fun _ _ => rfl) fun _ _ => rfl)

theorem TablesOnly.descriptors {s t : State} (h : TablesOnly s t) : t.descriptors = s.descriptors :=
  State.descriptors_congr fun q => by rw [h.columns q]

theorem State.freeDescriptor_congr {s t : State} (h : t.descriptors = s.descriptors) : t.freeDescriptor = s.freeDescriptor := by
  simp only [State.freeDescriptor, h]

theorem State.freeCellNumbers_congr {s t : State} (h : t.descriptors = s.descriptors) (k : Nat) :
    t.freeCellNumbers k = s.freeCellNumbers k := by
  simp only [State.freeCellNumbers, State.cellsHeld, h]

theorem State.drawMessage_congr {s t : State} (h : t.descriptors = s.descriptors) (hstore : t.store = s.store) :
    t.drawMessage.1 = s.drawMessage.1 := by
  simp only [State.drawMessage, h, hstore]

theorem State.taken_checkSpecs (s : State) (p : Port) (i : Fin 63) (earlier : List Source) (xs : List Spec) :
    (s.taken p).checkSpecs p i earlier xs = s.checkSpecs p i earlier xs := by
  induction xs generalizing earlier with
  | nil => rfl
  | cons x xs ih =>
    have hspec : (s.taken p).checkSpec p i earlier x = s.checkSpec p i earlier x := by
      cases x with
      | route j mode rights quota => simp only [State.checkSpec, State.checkRouteSpec, State.taken_route]
      | grant j mode rights =>
        simp only [State.checkSpec, State.checkGrantSpec, State.taken_grant]
        rfl
    simp only [State.checkSpecs, hspec, ih]

/-! ### The checks -/

theorem State.sendPath_ok {s : State} {p : Port} {i : Fin 63} {r : RouteCopy} {x : Family} (hr : s.route p i = some r)
    (hlive : r.state = .live) (hx : s.family r.family = some x) : s.sendPath p i = .ok { copy := r, family := x } := by
  simp only [State.sendPath, hr, hlive, CopyState.refusal, hx]

theorem State.checkTarget_passes {s : State} {r : RouteCopy} {x : Family} (hquota : r.outstanding < r.quota)
    (hopen : (s.inlet x.creator x.targetInlet).state = .opened)
    (hroom : (s.inlet x.creator x.targetInlet).queue.length < (s.inlet x.creator x.targetInlet).depth) :
    s.checkTarget { copy := r, family := x } = none := by
  simp only [State.checkTarget, hquota, hopen, hroom, not_true_eq_false, ne_eq, if_false]

/-- A SEND that passes every check is admitted (R64). -/
theorem sendBlock_admits {s : State} {p : Port} {o : SendOp} {r : RouteCopy} {x : Family} (hr : s.route p o.slot = some r)
    (hlive : r.state = .live) (hx : s.family r.family = some x)
    (htarget : s.checkTarget { copy := r, family := x } = none) (hspecs : s.checkSpecs p o.slot [] o.specs = none)
    (hreply : s.replyPasses p o.reply) (hstore : s.storeTakes (s.inlet x.creator x.targetInlet).lane o.body.length) :
    sendBlock p o s = s.admission p o { copy := r, family := x } := by
  have hnone : s.checkSend p o { copy := r, family := x } = none := by
    simp only [State.checkSend, htarget, hspecs, State.checkReply_none hreply, State.checkStore_none hstore]
    rfl
  simp only [sendBlock, State.sendPath_ok hr hlive hx, hnone]

theorem exec_sendCommand {s : State} (p : Port) (tag : Byte) (i : Fin 63) (ret : Bool) {reply : Option (Fin 16)}
    {specs : List Spec} {body : List Byte} (hspecs : ∀ x ∈ specs, x.admissible) (hcount : specs.length + reply.isSome.toNat ≤ 2)
    (hbody : body.length ≤ 512) : exec (sendCommand p tag i ret reply specs body) s = .next (takeRequest .send p tag
      (some (sendBlock p { slot := i, ret := ret, reply := reply, specs := specs, body := body })) s) := by
  rw [exec_request rfl rfl]
  simp only [requestBlock, sendCommand, formOf, formSend_sendCommand hspecs hcount hbody]
  rfl

/-! ### The admission -/

/-- A message placed: its storage taken, its descriptor at the tail of its queue, a DORMANT owner of a wake inlet woken. -/
theorem State.place_split (s : State) (m : NewMessage) : s.place m =
    ((s.onStore fun z => { z with freeDescriptors := z.freeDescriptors - 1,
                                  freeCells := z.freeCells - (m.body.length + 31) / 32 }).onInlet m.targetPort m.targetInlet
      fun z => { z with queue := z.queue ++ [s.fillDescriptor m] }).onSession m.targetPort fun z =>
        if (s.session m.targetPort).state = .dormant ∧ (s.inlet m.targetPort m.targetInlet).wake = true
        then { z with wakePending := true } else z := by
  rw [State.place_eq, State.fillDescriptor_cells]
  simp only [State.onSession, State.onInlet, State.onCol_onCol]
  refine State.onCol_congr _ m.targetPort ?_
  have hsession (f : Store → Store) : (s.onStore f).col m.targetPort = s.col m.targetPort := rfl
  by_cases h : (s.session m.targetPort).state = .dormant ∧ (s.inlet m.targetPort m.targetInlet).wake = true
  · have h' : (s.col m.targetPort).session.state = .dormant ∧ ((s.col m.targetPort).inlets.get m.targetInlet).wake = true := h
    simp only [Column.appended, hsession, if_pos h, if_pos h']
  · have h' : ¬ ((s.col m.targetPort).session.state = .dormant ∧ ((s.col m.targetPort).inlets.get m.targetInlet).wake = true) := h
    simp only [Column.appended, hsession, if_neg h, if_neg h']

/-- Enclosing changes no more of a family than its copy count. -/
theorem Encloses.family {p : Port} {s t : State} {xs : List Spec} {es : List Enclosure} (h : Encloses p s xs es t) {f : Fin 256}
    {x : Family} (hx : s.family f = some x) : ∃ n, t.family f = some { x with copies := n } := by
  induction h generalizing x with
  | done s => exact ⟨x.copies, hx⟩
  | @routeCopy s t i wish quota r y xs es hr hy _ ih =>
    by_cases hf : f = r.family
    · subst hf
      cases hy.symm.trans hx
      exact ih (x := { y with copies := y.copies + 1 }) (State.setFamily_family_same ..)
    · exact ih ((State.setFamily_family_ne _ _ _ hf).trans hx)
  | routePass hr hy _ ih => exact ih hx
  | grantCopy hg hw _ ih => exact ih hx
  | grantPass hg _ ih => exact ih hx

/-- A SEND's specs do not pass its sending slot: check 6 refuses that (R69). -/
theorem SpecsVerdict.sending {s : State} {p : Port} {i : Fin 63} {earlier : List Source} {xs : List Spec}
    (h : SpecsVerdict s p i earlier xs none) (wish : RouteRights) (quota : Nat) : Spec.route i .pass wish quota ∉ xs := by
  generalize hv : (none : Option Status) = v at h
  induction h with
  | passed earlier => exact List.not_mem_nil
  | refused hx => exact absurd hv nofun
  | next hx _ ih =>
    intro hin
    rcases List.mem_cons.mp hin with rfl | hin
    · cases hx with
      | routePasses _ _ _ hsending _ => exact hsending ⟨rfl, rfl⟩
    · exact ih hv hin

theorem Encloses.route_kept {p : Port} {s t : State} {xs : List Spec} {es : List Enclosure} (h : Encloses p s xs es t) {i : Fin 63}
    (hi : ∀ wish quota, Spec.route i .pass wish quota ∉ xs) : t.route p i = s.route p i := by
  induction h with
  | done s => rfl
  | routeCopy hr hy _ ih => exact ih fun wish quota hin => hi wish quota (List.mem_cons_of_mem _ hin)
  | @routePass s t j wish quota r y xs es hr hy _ ih =>
    have hij : i ≠ j := fun heq => hi wish quota (heq ▸ List.mem_cons_self ..)
    exact (ih fun wish quota hin => hi wish quota (List.mem_cons_of_mem _ hin)).trans (State.setRoute_route_other s p p _ hij)
  | grantCopy hg hw _ ih => exact ih fun wish quota hin => hi wish quota (List.mem_cons_of_mem _ hin)
  | grantPass hg _ ih =>
    exact (ih fun wish quota hin => hi wish quota (List.mem_cons_of_mem _ hin)).trans (State.setGrant_route ..)

theorem Mints.route_kept {p : Port} {number : Nat} {s t : State} {reply : Option (Fin 16)} {minted : Option (Fin 256)}
    (h : Mints p number s reply minted t) (q : Port) (i : Fin 63) : t.route q i = s.route q i := by
  cases h <;> rfl

/-- A family that stood before the mint stands as it was. -/
theorem Mints.family_kept {p : Port} {number : Nat} {s t : State} {reply : Option (Fin 16)} {minted : Option (Fin 256)}
    (h : Mints p number s reply minted t) {f : Fin 256} {x : Family} (hx : s.family f = some x) : t.family f = some x := by
  cases h with
  | nothing => exact hx
  | @minted n g hfree hlow =>
    have hfg : f ≠ g := fun heq => by simp [heq, hfree] at hx
    exact (State.setFamily_family_ne _ _ _ hfg).trans hx

theorem State.charged_ordinary (s : State) {p : Port} {i : Fin 63} {r : RouteCopy} {x : Family} (h : x.kind = .ordinary) :
    s.charged p i r x = s.setRoute p i (some { r with outstanding := r.outstanding + 1 }) := by
  simp only [State.charged, h]

theorem State.charged_single (s : State) {p : Port} {i : Fin 63} {r : RouteCopy} {x : Family} (h : x.kind = .single) :
    s.charged p i r x = (s.setRoute p i none).setFamily r.family x.lowered := by
  unfold State.charged
  split
  · next hordinary => exact absurd (h.symm.trans hordinary) (by decide)
  · rfl

theorem State.charge_eq {s : State} {p : Port} {i : Fin 63} {path : Path} {y : Family} (hr : s.route p i = some path.copy)
    (hy : s.family path.copy.family = some y) (hkind : y.kind = path.family.kind) :
    s.charge p i path = s.charged p i path.copy y := by
  cases hpath : path.family.kind with
  | ordinary =>
    rw [State.charged_ordinary _ (hkind.trans hpath)]
    simp only [State.charge, hpath, hr]
  | single =>
    rw [State.charged_single _ (hkind.trans hpath)]
    simp only [State.charge, hpath]
    exact State.lowerFamily_eq hy

theorem mintedEnclosure_eq (minted : Option (Fin 256)) : mintedEnclosure minted = replyEnclosure minted := by
  cases minted <;> rfl

/-- The message an admitted SEND becomes (R79): `s` is the state its request found. -/
def State.sentMessage (s : State) (p : Port) (o : SendOp) (r : RouteCopy) (x : Family) (es : List Enclosure) : Descriptor :=
  { number := s.freeDescriptor, messageNumber := s.drawMessage.1,
    sender := .agent p (s.session p).generation o.slot r.serial, targetPort := x.creator, targetInlet := x.targetInlet,
    ret := o.ret, label := x.label, lifecycle := .queued, enclosures := es, bodyLength := o.body.length,
    cells := fillCells (s.freeCellNumbers ((o.body.length + 31) / 32)) o.body }

/-- The copy charged, the storage taken, the message at the tail of the target inlet, a DORMANT owner of a wake inlet woken
(R78, R79, R24): `s` is the state the request found. -/
def State.sent (v s : State) (p : Port) (o : SendOp) (r : RouteCopy) (x y : Family) (d : Descriptor) : State :=
  (((v.charged p o.slot r y).onStore fun z =>
      { z with freeDescriptors := z.freeDescriptors - 1, freeCells := z.freeCells - (o.body.length + 31) / 32 }).onInlet x.creator
    x.targetInlet fun z => { z with queue := z.queue ++ [d] }).onSession x.creator fun z =>
      if (s.session x.creator).state = .dormant ∧ (s.inlet x.creator x.targetInlet).wake = true
      then { z with wakePending := true } else z

/-- An admission, from the enclosures made and the family minted (R73 to R79). -/
theorem State.admission_sent {s u v : State} {p : Port} {o : SendOp} {r : RouteCopy} {x y : Family} {es : List Enclosure}
    {minted : Option (Fin 256)} (hr : s.route p o.slot = some r) (hx : s.family r.family = some x)
    (hspecs : ∀ wish quota, Spec.route o.slot .pass wish quota ∉ o.specs) (hes : Encloses p s.drawMessage.2 o.specs es u)
    (hminted : Mints p s.drawMessage.1 u o.reply minted v) (hy : v.family r.family = some y) :
    s.admission p o { copy := r, family := x } =
      (v.sent s p o r x y (s.sentMessage p o r x (es ++ replyEnclosure minted)), .now .ok (.send s.drawMessage.1 minted)) := by
  have hroute : v.route p o.slot = some r := by
    rw [hminted.route_kept, hes.route_kept hspecs]
    exact hr
  have hkind : y.kind = x.kind := by
    obtain ⟨n, hu⟩ := hes.family (f := r.family) hx
    cases (hminted.family_kept hu).symm.trans hy
    rfl
  have hadmitted : s.admitted p o { copy := r, family := x } = v.charged p o.slot r y := by
    simp only [State.admitted, hes.encloseAll, hminted.mint]
    exact State.charge_eq hroute hy hkind
  have hfamily : s.mintedFamily p o = minted := by simp only [State.mintedFamily, hes.encloseAll, hminted.mint]
  have htables : TablesOnly s.drawMessage.2 (v.charged p o.slot r y) :=
    hadmitted ▸ TablesOnly.admitted s p o { copy := r, family := x }
  have hsession (q : Port) : (v.charged p o.slot r y).session q = s.session q := htables.session q
  have hinlet (q : Port) (i : Fin 16) : (v.charged p o.slot r y).inlet q i = s.inlet q i := htables.inlet q i
  have hdescriptors : (v.charged p o.slot r y).descriptors = s.descriptors := htables.descriptors
  have hmessage : (v.charged p o.slot r y).fillDescriptor (s.admittedMessage p o { copy := r, family := x }) =
      s.sentMessage p o r x (es ++ replyEnclosure minted) := by
    simp only [State.fillDescriptor, State.admittedMessage, hadmitted, hfamily, hes.encloseAll, mintedEnclosure_eq, hsession,
      State.freeDescriptor_congr hdescriptors, State.freeCellNumbers_congr hdescriptors]
    rfl
  rw [State.admission_eq, hadmitted, hfamily, State.place_split, hmessage]
  simp only [State.admittedMessage, hsession, hinlet]
  rfl

/-! ### A SEND taken -/

theorem State.taken_drawMessage (s : State) (p : Port) : (s.taken p).drawMessage =
    (s.drawMessage.1, (s.taken p).onStore fun z => { z with nextMessage := nextNumber s.drawMessage.1 }) := by
  have hnumber : (s.taken p).drawMessage.1 = s.drawMessage.1 := State.drawMessage_congr (s.taken_descriptors p) rfl
  rw [← hnumber]
  rfl

theorem State.taken_sentMessage (s : State) (p : Port) (o : SendOp) (r : RouteCopy) (x : Family) (es : List Enclosure) :
    (s.taken p).sentMessage p o r x es = s.sentMessage p o r x es := by
  have hdescriptors := s.taken_descriptors p
  simp only [State.sentMessage, State.freeDescriptor_congr hdescriptors, State.freeCellNumbers_congr hdescriptors,
    State.taken_drawMessage, State.taken_session]

theorem State.taken_sent (v s : State) (p : Port) (o : SendOp) (r : RouteCopy) (x y : Family) (d : Descriptor) :
    v.sent (s.taken p) p o r x y d = v.sent s p o r x y d := by
  simp only [State.sent, State.taken_session, State.taken_inlet]

theorem State.taken_replyPasses {s : State} {p : Port} {reply : Option (Fin 16)} (h : s.replyPasses p reply) :
    (s.taken p).replyPasses p reply := fun n hn => by
  rw [State.taken_inlet]
  exact h n hn

section

variable {s : State} {p : Port} {o : SendOp} {r : RouteCopy} {x : Family}

/-- A SEND that passes every check, taken at its port, is sent (R64, R73 to R79). -/
theorem takeRequest_sent (tag : Byte) (h : s.serves p) (hr : s.route p o.slot = some r) (hlive : r.state = .live)
    (hx : s.family r.family = some x) (hquota : r.outstanding < r.quota)
    (hopen : (s.inlet x.creator x.targetInlet).state = .opened)
    (hroom : (s.inlet x.creator x.targetInlet).queue.length < (s.inlet x.creator x.targetInlet).depth)
    (hspecs : SpecsVerdict s p o.slot [] o.specs none) (hreply : s.replyPasses p o.reply)
    (hstore : s.storeTakes (s.inlet x.creator x.targetInlet).lane o.body.length) {es : List Enclosure} {u v : State}
    {minted : Option (Fin 256)} {y : Family}
    (hes : Encloses p ((s.taken p).onStore fun z => { z with nextMessage := nextNumber s.drawMessage.1 }) o.specs es u)
    (hminted : Mints p s.drawMessage.1 u o.reply minted v) (hy : v.family r.family = some y) :
    takeRequest .send p tag (some (sendBlock p o)) s = followAtn s ((v.sent s p o r x y
      (s.sentMessage p o r x (es ++ replyEnclosure minted))).replied p tag 0x10 .ok (.send s.drawMessage.1 minted)) := by
  have hr' : (s.taken p).route p o.slot = some r := by rw [State.taken_route, hr]
  have htarget : (s.taken p).checkTarget { copy := r, family := x } = none :=
    State.checkTarget_passes hquota (by rw [State.taken_inlet, hopen]) (by rw [State.taken_inlet]; exact hroom)
  have hchecks : (s.taken p).checkSpecs p o.slot [] o.specs = none := by rw [State.taken_checkSpecs, hspecs.checkSpecs]
  have hadmits := sendBlock_admits (s := s.taken p) hr' hlive hx htarget hchecks (State.taken_replyPasses hreply)
    (by rw [State.taken_inlet]; exact hstore)
  have hnumber : (s.taken p).drawMessage.1 = s.drawMessage.1 := by rw [State.taken_drawMessage]
  have hdrawn : (s.taken p).drawMessage.2 = (s.taken p).onStore fun z => { z with nextMessage := nextNumber s.drawMessage.1 } := by
    rw [State.taken_drawMessage]
  have hsent := State.admission_sent (s := s.taken p) hr' hx hspecs.sending (hdrawn ▸ hes) (hnumber ▸ hminted) hy
  rw [State.taken_sent, State.taken_sentMessage, hnumber] at hsent
  have hblock := hadmits.trans hsent
  have hresponses : ((v.sent s p o r x y (s.sentMessage p o r x (es ++ replyEnclosure minted))).ctl p).responses =
      (s.ctl p).responses := by
    have hcalm := (sendBlock_calm p o (s.taken p)).ctl p
    rw [hblock, State.taken_ctl, if_pos rfl] at hcalm
    rw [hcalm]
  exact takeRequest_served tag h.1 (State.gate_serves .send h rfl) hblock hresponses

end

/-! ### Changes of a column that keep its port controller -/

/-- A change of a column that neither reads nor changes its port controller commutes with a change of a port controller. -/
theorem State.onCol_onCtl (s : State) (p q : Port) {f : Column → Column} (g : PortController → PortController)
    (hport : ∀ c, (f c).port = c.port) (hf : ∀ c x, f { c with port := x } = { f c with port := x }) :
    (s.onCtl p g).onCol q f = (s.onCol q f).onCtl p g := by
  refine State.ext_columns rfl fun k => ?_
  simp only [State.onCtl, State.onCol_col]
  split_ifs
  · rw [hf, hport]
  all_goals rfl

theorem State.onInlet_onCtl (s : State) (p q : Port) (i : Fin 16) (f : Inlet → Inlet) (g : PortController → PortController) :
    (s.onCtl p g).onInlet q i f = (s.onInlet q i f).onCtl p g := State.onCol_onCtl s p q g (fun _ => rfl) fun _ _ => rfl

theorem State.onSession_onCtl (s : State) (p q : Port) (f : Session → Session) (g : PortController → PortController) :
    (s.onCtl p g).onSession q f = (s.onSession q f).onCtl p g := State.onCol_onCtl s p q g (fun _ => rfl) fun _ _ => rfl

theorem State.charged_onCtl (s : State) (p : Port) (i : Fin 63) (r : RouteCopy) (x : Family)
    (g : PortController → PortController) : (s.onCtl p g).charged p i r x = (s.charged p i r x).onCtl p g := by
  unfold State.charged
  split
  · exact State.setRoute_onCtl ..
  · rw [State.setRoute_onCtl]
    rfl

theorem State.onStore_onCtl (s : State) (p : Port) (f : Store → Store) (g : PortController → PortController) :
    (s.onCtl p g).onStore f = (s.onStore f).onCtl p g := rfl

theorem State.charged_onStore (s : State) (p : Port) (i : Fin 63) (r : RouteCopy) (x : Family) (f : Store → Store) :
    (s.onStore f).charged p i r x = (s.charged p i r x).onStore f := by
  unfold State.charged
  split <;> rfl

/-- Settles O16: the admission without enclosures, its answer moved to where the statement gives it. -/
theorem sendAppendsAMessage : Obligations.SendAppendsAMessage := by
  unfold Obligations.SendAppendsAMessage
  intro s p tag i ret body r x h hbody hr hlive hx hquota hopen hroom cells hdescriptors hcells hreserve number d
  have hlength : (s.freeCellNumbers cells).length = cells := s.freeCellNumbers_length cells
  refine ⟨(fillCells_length _ _).trans hlength, fillCells_bytes (by rw [hlength]; omega), ?_⟩
  have hsends := exec_sendCommand (s := s) p tag i ret (reply := none) (specs := []) (body := body) (by simp) (by simp) hbody
  have hrun := takeRequest_sent (o := { slot := i, ret := ret, reply := none, specs := [], body := body }) tag h hr hlive hx hquota
    hopen hroom (.passed []) (fun _ hn => nomatch hn) ⟨hdescriptors, hcells, hreserve⟩ (.done _) .nothing hx
  have heq : (((((s.answer p tag 0x10 .ok (.send number none)).setStream p none).charged p i r x).onStore fun y =>
      { y with nextMessage := if number < 65535 then number + 1 else 1,
               freeDescriptors := y.freeDescriptors - 1, freeCells := y.freeCells - cells }).onInlet x.creator
      x.targetInlet fun y => { y with queue := y.queue ++ [d] }).onSession x.creator (fun y =>
        if (s.session x.creator).state = .dormant ∧ (s.inlet x.creator x.targetInlet).wake = true
        then { y with wakePending := true } else y) =
      ((((s.taken p).onStore fun z => { z with nextMessage := nextNumber s.drawMessage.1 }).sent s p
        { slot := i, ret := ret, reply := none, specs := [], body := body } r x x
        (s.sentMessage p { slot := i, ret := ret, reply := none, specs := [], body := body } r x
          ([] ++ replyEnclosure none))).replied p tag 0x10 .ok (.send s.drawMessage.1 none)) := by
    rw [State.answer_closed_eq, State.charged_onCtl, State.onStore_onCtl, State.onInlet_onCtl, State.onSession_onCtl,
      State.sent, State.charged_onStore]
    rfl
  rw [heq]
  exact ⟨_, hsends.trans (congrArg _ hrun), followAtn_lines _ _⟩

/-! ### One route enclosed -/

/-- What an admission through an ORDINARY copy leaves, record by record. -/
structure Sent (v t : State) (p : Port) (i : Fin 63) (r : RouteCopy) (x : Family) (d : Descriptor) : Prop where
  route : ∀ q k, t.route q k = if q = p ∧ k = i then some { r with outstanding := r.outstanding + 1 } else v.route q k
  inlet : ∀ q k, t.inlet q k = if q = x.creator ∧ k = x.targetInlet
    then { v.inlet q k with queue := (v.inlet q k).queue ++ [d] } else v.inlet q k
  part : t.families = v.families ∧ t.windows = v.windows ∧ t.bulk = v.bulk ∧ t.config = v.config

theorem State.sent_reads {v : State} (s : State) {p : Port} {o : SendOp} {r : RouteCopy} {x y : Family} {d : Descriptor}
    (hkind : y.kind = .ordinary) (tag : Byte) (n : Nat) :
    Sent v (followAtn s ((v.sent s p o r x y d).replied p tag 0x10 .ok (.send n none))) p o.slot r x d := by
  unfold State.sent State.replied
  rw [State.charged_ordinary v hkind]
  refine ⟨fun q k => ?_, fun q k => ?_, ?_⟩
  · rw [followAtn_route, State.onCtl_route, State.onSession_route, State.onInlet_route, State.onStore_route]
    split_ifs with h
    · rw [h.1, h.2, State.setRoute_route_same]
    · rcases not_and_or.mp h with hne | hne
      · exact State.setRoute_route_ne _ _ _ _ hne
      · exact State.setRoute_route_other _ _ _ _ hne
  · rw [followAtn_inlet, State.onCtl_inlet, State.onSession_inlet]
    split_ifs with h
    · rw [h.1, h.2, State.onInlet_inlet_same, State.onStore_inlet, State.setRoute_inlet]
    · rcases not_and_or.mp h with hne | hne
      · rw [State.onInlet_inlet_ne _ _ _ _ hne, State.onStore_inlet, State.setRoute_inlet]
      · rw [State.onInlet_inlet_other _ _ _ _ hne, State.onStore_inlet, State.setRoute_inlet]
  · rw [followAtn_part]
    exact ⟨rfl, rfl, rfl, rfl⟩

/-- A SEND without a minted reply, through an ORDINARY copy, from the enclosures it makes. -/
theorem exec_enclosing {s u : State} {p : Port} (tag : Byte) {i : Fin 63} (ret : Bool) {specs : List Spec} {body : List Byte}
    {r : RouteCopy} {x : Family} {es : List Enclosure} (h : s.serves p) (hbody : body.length ≤ 512)
    (hadmissible : ∀ y ∈ specs, y.admissible) (hcount : specs.length ≤ 2) (hr : s.route p i = some r) (hlive : r.state = .live)
    (hx : s.family r.family = some x) (hkind : x.kind = .ordinary) (hquota : r.outstanding < r.quota)
    (hopen : (s.inlet x.creator x.targetInlet).state = .opened)
    (hroom : (s.inlet x.creator x.targetInlet).queue.length < (s.inlet x.creator x.targetInlet).depth)
    (hspecs : SpecsVerdict s p i [] specs none) (hstore : s.storeTakes (s.inlet x.creator x.targetInlet).lane body.length)
    (hes : Encloses p ((s.taken p).onStore fun z => { z with nextMessage := nextNumber s.drawMessage.1 }) specs es u) :
    ∃ t d, exec (sendCommand p tag i ret none specs body) s = .next t ∧ Sent u t p i r x d ∧ d.enclosures = es ∧ d.body = body := by
  obtain ⟨n, hy⟩ := hes.family (f := r.family) hx
  have hrun := takeRequest_sent (o := { slot := i, ret := ret, reply := none, specs := specs, body := body }) tag h hr hlive hx
    hquota hopen hroom hspecs (fun _ hn => nomatch hn) hstore hes .nothing hy
  refine ⟨_, _, (exec_sendCommand p tag i ret hadmissible (by simpa using hcount) hbody).trans (congrArg _ hrun),
    State.sent_reads (o := { slot := i, ret := ret, reply := none, specs := specs, body := body }) (y := { x with copies := n }) s hkind tag _,
    List.append_nil es, ?_⟩
  refine fillCells_bytes ?_
  rw [State.freeCellNumbers_length]
  omega

/-- What enclosing one route leaves, record by record: COPY raises the count, PASS frees the source (R75, R76). -/
structure EnclosedOne (s u : State) (p : Port) (pass : Bool) (j : Fin 63) (src : RouteCopy) (y : Family) : Prop where
  route : ∀ q k, u.route q k = if q = p ∧ k = j then (if pass then none else some src) else s.route q k
  family : u.family src.family = some (if pass then y else { y with copies := y.copies + 1 })
  family_ne : ∀ f, f ≠ src.family → u.family f = s.family f
  inlet : ∀ q k, u.inlet q k = s.inlet q k
  part : u.windows = s.windows ∧ u.bulk = s.bulk ∧ u.config = s.config

theorem enclose_one {s : State} {p : Port} {number : Nat} {j : Fin 63} {src : RouteCopy} {y : Family} (pass : Bool)
    (wish : RouteRights) (quota : Nat) (hsrc : s.route p j = some src) (hy : s.family src.family = some y) :
    ∃ u, Encloses p ((s.taken p).onStore fun z => { z with nextMessage := number })
      [.route j (if pass then .pass else .copy) wish quota]
      [.route src.family (if pass then .pass else .copy)
        { copy := wish.copy && src.rights.copy && y.rights.copy, pass := wish.pass && src.rights.pass && y.rights.pass }
        (if quota = 0 then min src.quota y.quota else min quota (min src.quota y.quota)) .inTransit] u ∧
      EnclosedOne s u p pass j src y := by
  let drawn : State := (s.taken p).onStore fun z => { z with nextMessage := number }
  have hroute (q : Port) (k : Fin 63) : drawn.route q k = s.route q k := State.taken_route s p q k
  have hinlet (q : Port) (k : Fin 16) : drawn.inlet q k = s.inlet q k := State.taken_inlet s p q k
  have hsrc' : drawn.route p j = some src := (hroute p j).trans hsrc
  have hkept {q : Port} {k : Fin 63} : (if q = p ∧ k = j then some src else s.route q k) = s.route q k := by
    split_ifs with h
    · rw [h.1, h.2, hsrc]
    · rfl
  cases pass with
  | false =>
    refine ⟨_, .routeCopy hsrc' hy (.done _), fun q k => ?_, State.setFamily_family_same .., fun f hf => ?_, hinlet, rfl, rfl, rfl⟩
    · exact (hroute q k).trans hkept.symm
    · exact State.setFamily_family_ne drawn _ _ hf
  | true =>
    refine ⟨_, .routePass hsrc' hy (.done _), fun q k => ?_, hy, fun f hf => rfl, fun q k => ?_, rfl, rfl, rfl⟩
    · by_cases h : q = p ∧ k = j
      · rw [if_pos h, h.1, h.2]
        exact State.setRoute_route_same drawn p j none
      · rw [if_neg h]
        refine Eq.trans ?_ (hroute q k)
        rcases not_and_or.mp h with hne | hne
        · exact State.setRoute_route_ne drawn j none k hne
        · exact State.setRoute_route_other drawn p q none hne
    · exact (State.setRoute_inlet drawn p j none q k).trans (hinlet q k)

/-- Settles O18: the second part is the admission itself; the first reads it off record by record. -/
theorem sendEnclosesARoute : Obligations.SendEnclosesARoute := by
  unfold Obligations.SendEnclosesARoute
  refine ⟨?_, ?_⟩
  · intro s p tag i j pass ret quota wish body r x src y h hbody hquota hr hlive hx hkind hunder hopen hroom hlane hdescriptors
      hcells hji hsrc hsrcLive hy hright
    have hstore : s.storeTakes (s.inlet x.creator x.targetInlet).lane body.length := ⟨hdescriptors, hcells, .inl hlane⟩
    have hholds : src.rights.holds (if pass then .pass else .copy) := by
      cases pass
      · exact .inl ⟨rfl, hright⟩
      · exact .inr ⟨rfl, hright⟩
    have hverdict : SpecsVerdict s p i [] [.route j (if pass then .pass else .copy) wish quota] none :=
      .next (.routePasses hsrc hsrcLive hholds (fun hpass => hji hpass.2) List.not_mem_nil) (.passed _)
    have hadmissible : ∀ z ∈ [Spec.route j (if pass then .pass else .copy) wish quota], z.admissible := by
      cases pass <;> simp [Spec.admissible, hquota]
    obtain ⟨u, hes, hu⟩ := enclose_one (number := nextNumber s.drawMessage.1) pass wish quota hsrc hy
    obtain ⟨t, d, hexec, hsent, henclosures, hdbody⟩ := exec_enclosing tag ret h hbody hadmissible (by simp) hr hlive hx hkind
      hunder hopen hroom hverdict hstore hes
    obtain ⟨hfamilies, hwindows, hbulk, hconfig⟩ := hsent.part
    have hfamily (f : Fin 256) : t.family f = u.family f := congrArg (Tab.get · f) hfamilies
    refine ⟨t, d, ?_, ?_, henclosures, hdbody, ?_, ?_, ?_, fun q k hqk => ?_, fun f hf => ?_, fun q k hqk => ?_, ?_⟩
    · rw [← hexec]
      cases pass <;> rfl
    · rw [hsent.inlet, if_pos ⟨rfl, rfl⟩, hu.inlet]
    · rw [hsent.route, if_neg (fun hij => hji hij.2), hu.route, if_pos ⟨rfl, rfl⟩]
    · rw [hfamily, hu.family]
    · rw [hsent.route, if_pos ⟨rfl, rfl⟩]
    · have hi : ¬ (q = p ∧ k = i) := fun ⟨hq, hk⟩ => hqk.elim (· hq) fun hne => hne.1 hk
      have hj : ¬ (q = p ∧ k = j) := fun ⟨hq, hk⟩ => hqk.elim (· hq) fun hne => hne.2 hk
      rw [hsent.route, if_neg hi, hu.route, if_neg hj]
    · rw [hfamily, hu.family_ne f hf]
    · have hk : ¬ (q = x.creator ∧ k = x.targetInlet) := fun ⟨hq, hk⟩ => hqk.elim (· hq) (· hk)
      rw [hsent.inlet, if_neg hk, hu.inlet]
    · rw [hwindows, hbulk, hconfig]
      exact hu.part
  · intro s p tag i ret reply specs body r x h hbody hadmissible hcount hr hlive hx hunder hopen hroom hspecs hreply hstore
      cells number
    refine ⟨_, exec_sendCommand p tag i ret hadmissible hcount hbody, ?_⟩
    intro es u minted v y hes hminted hy d
    rw [takeRequest_sent (o := { slot := i, ret := ret, reply := reply, specs := specs, body := body }) tag h hr hlive hx hunder
      hopen hroom hspecs hreply hstore hes hminted hy]
    exact followAtn_lines _ _

end Sys2Proof.Machine

/-! PROOFS. SEND refused at the first check that fails (04: The admission checks). -/

namespace Sys2Proof.Machine

/-! ### The block's refusals -/

section

variable {s : State} {p : Port} {o : SendOp} {r : RouteCopy} {x : Family} {st : Status}

theorem sendBlock_noPath (h : s.sendPath p o.slot = .error st) : sendBlock p o s = (s, .bare st) := by
  simp only [sendBlock, h]

theorem sendBlock_refuses (hr : s.route p o.slot = some r) (hlive : r.state = .live) (hx : s.family r.family = some x)
    (h : s.checkSend p o { copy := r, family := x } = some st) :
    sendBlock p o s = s.refuseSend { copy := r, family := x } st := by
  simp only [sendBlock, State.sendPath_ok hr hlive hx, h]

theorem State.refuseSend_bare (path : Path) (hinlet : st ≠ .inletFull) (hstore : st ≠ .storeFull) :
    s.refuseSend path st = (s, .bare st) := by
  unfold State.refuseSend
  split
  · exact absurd rfl hinlet
  · exact absurd rfl hstore
  · rfl

theorem State.checkTarget_quota (h : r.quota ≤ r.outstanding) : s.checkTarget { copy := r, family := x } = some .quota := by
  simp only [State.checkTarget, if_pos (Nat.not_lt.mpr h)]

theorem State.checkTarget_closed (h : r.outstanding < r.quota) (hclosed : (s.inlet x.creator x.targetInlet).state ≠ .opened) :
    s.checkTarget { copy := r, family := x } = some .inletClosed := by
  simp only [State.checkTarget, if_neg (not_not.mpr h), if_pos hclosed]

theorem State.checkTarget_full (h : r.outstanding < r.quota) (hopen : (s.inlet x.creator x.targetInlet).state = .opened)
    (hfull : (s.inlet x.creator x.targetInlet).depth ≤ (s.inlet x.creator x.targetInlet).queue.length) :
    s.checkTarget { copy := r, family := x } = some .inletFull := by
  simp only [State.checkTarget, if_neg (not_not.mpr h), if_neg (not_not.mpr hopen), if_pos (Nat.not_lt.mpr hfull)]

theorem State.checkSend_target {path : Path} (h : s.checkTarget path = some st) : s.checkSend p o path = some st := by
  simp only [State.checkSend, h]
  rfl

theorem State.checkSend_specs {path : Path} (ht : s.checkTarget path = none) (h : s.checkSpecs p o.slot [] o.specs = some st) :
    s.checkSend p o path = some st := by
  simp only [State.checkSend, ht, h]
  rfl

theorem State.checkSend_reply {path : Path} (ht : s.checkTarget path = none) (hs : s.checkSpecs p o.slot [] o.specs = none)
    (h : s.checkReply p o.reply = some st) : s.checkSend p o path = some st := by
  simp only [State.checkSend, ht, hs, h]
  rfl

theorem State.checkSend_store {path : Path} (ht : s.checkTarget path = none) (hs : s.checkSpecs p o.slot [] o.specs = none)
    (hr : s.checkReply p o.reply = none)
    (h : s.checkStore (s.inlet path.family.creator path.family.targetInlet).lane o.body.length = some st) :
    s.checkSend p o path = some st := by
  simp only [State.checkSend, ht, hs, hr, h]
  rfl

theorem State.checkReply_fixed : s.checkReply p (some 0) = some .fixed := rfl

theorem State.checkReply_closed {n : Fin 16} (hn : n ≠ 0) (hclosed : (s.inlet p n).state ≠ .opened) :
    s.checkReply p (some n) = some .inletClosed := by
  simp only [State.checkReply, if_neg hn, if_pos hclosed]

theorem State.checkReply_noFamily {n : Fin 16} (hn : n ≠ 0) (hopen : (s.inlet p n).state = .opened)
    (hfamily : ∀ f, s.family f ≠ none) : s.checkReply p (some n) = some .noFamily := by
  simp only [State.checkReply, if_neg hn, if_neg (not_not.mpr hopen), State.freeFamily_none hfamily, Option.isNone_none, if_true]

end

/-! ### A refusal that raises a count -/

theorem State.onInlet_drives (s : State) (p q : Port) (i : Fin 16) (f : Inlet → Inlet) :
    State.DrivesOnly p s (s.onInlet q i f) := fun k _ =>
  State.atnDrive_congr rfl rfl rfl (by rw [State.onInlet_session]) (by rw [State.onInlet_session])
    (State.onCol_keeps s q (g := fun c => { c with inlets := c.inlets.put i (f (c.inlets.get i)) }) Column.waiting (fun _ => rfl) k)

/-- A request refused by its block, which raises a count, is answered so. -/
theorem takeRequest_counted {k : RequestKind} {s u : State} {p : Port} {tag : Byte} {act : State → State × Answer} {st : Status}
    (hk : k.keepsStream = false) (h : s.takesRequests p) (hg : s.gate p k = none) (ha : act (s.taken p) = (u, .bare st))
    (hcalm : Calm (s.taken p) u) (hdrives : State.DrivesOnly p (s.taken p) u) :
    EqualButLine p (u.replied p tag k.code st .none) (takeRequest k p tag (some act) s) := by
  have hresponses : (u.ctl p).responses = (s.ctl p).responses := by rw [hcalm.ctl, State.taken_ctl, if_pos rfl]
  rw [takeRequest_served tag h hg (by rw [State.closeStream_closes hk]; exact ha) hresponses]
  exact followAtn_line s _ p (State.DrivesOnly.trans (s.taken_drive p) (hdrives.trans (State.drive_onCol u p _)))

/-- Settles O17: the checks stand in their order, and a refusal changes at most the count of its check. -/
theorem sendRefusedAtTheFirstCheck : Obligations.SendRefusedAtTheFirstCheck := by
  unfold Obligations.SendRefusedAtTheFirstCheck
  intro s p tag i ret reply specs body h hbody hadmissible hcount hfamily refused send answered
  let o : SendOp := { slot := i, ret := ret, reply := reply, specs := specs, body := body }
  have hexec : exec send s = .next (takeRequest .send p tag (some (sendBlock p o)) s) :=
    exec_sendCommand p tag i ret hadmissible hcount hbody
  have hgate : s.gate p .send = none := State.gate_serves _ h rfl
  have hanswers {st : Status} (hblock : sendBlock p o (s.taken p) = (s.taken p, .bare st)) : answered st :=
    turnsAway_of_block (k := .send) rfl h.1 hgate hexec hblock
  refine ⟨fun hfree => ?_, fun r hr hstale => ?_, fun r hr hreserved => ?_, fun r x hr hlive hx => ?_⟩
  · refine hanswers (sendBlock_noPath ?_)
    simp only [State.sendPath, o, State.taken_route, hfree]
  · refine hanswers (sendBlock_noPath ?_)
    simp only [State.sendPath, o, State.taken_route, hr, hstale, CopyState.refusal]
  · refine hanswers (sendBlock_noPath ?_)
    simp only [State.sendPath, o, State.taken_route, hr, hreserved, CopyState.refusal]
  intro target
  have hr' : (s.taken p).route p i = some r := by rw [State.taken_route, hr]
  have hinlet : (s.taken p).inlet x.creator x.targetInlet = target := State.taken_inlet ..
  have hrefuses {st : Status} (hcheck : (s.taken p).checkSend p o { copy := r, family := x } = some st) :
      sendBlock p o (s.taken p) = (s.taken p).refuseSend { copy := r, family := x } st := sendBlock_refuses hr' hlive hx hcheck
  have hbare {st : Status} (hcheck : (s.taken p).checkSend p o { copy := r, family := x } = some st) (hfull : st ≠ .inletFull)
      (hstore : st ≠ .storeFull) : answered st := hanswers ((hrefuses hcheck).trans (State.refuseSend_bare _ hfull hstore))
  refine ⟨fun hquota => ?_, fun hunder hclosed => ?_, fun hunder hopen hfull => ?_, fun hunder hopen hroom => ?_⟩
  · exact hbare (State.checkSend_target (State.checkTarget_quota hquota)) (by decide) (by decide)
  · exact hbare (State.checkSend_target (State.checkTarget_closed hunder (hinlet ▸ hclosed))) (by decide) (by decide)
  · have hblock := hrefuses (State.checkSend_target (State.checkTarget_full hunder (hinlet ▸ hopen) (hinlet ▸ hfull)))
    refine ⟨_, hexec, ?_⟩
    have hline := takeRequest_counted (k := .send) rfl h.1 hgate hblock (Calm.onInlet _ _ _ _) (State.onInlet_drives _ p _ _ _)
      (tag := tag)
    simp only [refused]
    rw [State.answer_closed_eq, State.onInlet_onCtl]
    exact hline
  have htarget : (s.taken p).checkTarget { copy := r, family := x } = none :=
    State.checkTarget_passes hunder (hinlet ▸ hopen) (hinlet ▸ hroom)
  refine ⟨fun st hverdict => ?_, fun hverdict => ⟨fun hreply => ?_, fun n hreply hn hclosed => ?_, fun n hreply hn hopen' hnone => ?_,
    fun hreply hfull => ?_⟩⟩
  · have hchecks : (s.taken p).checkSpecs p i [] specs = some st := by rw [State.taken_checkSpecs, hverdict.checkSpecs]
    exact hbare (State.checkSend_specs htarget hchecks) hverdict.refusal.1 hverdict.refusal.2
  all_goals have hchecks : (s.taken p).checkSpecs p i [] specs = none := by rw [State.taken_checkSpecs, hverdict.checkSpecs]
  · have hcheck : (s.taken p).checkReply p reply = some .fixed := by rw [hreply, State.checkReply_fixed]
    exact hbare (State.checkSend_reply htarget hchecks hcheck) (by decide) (by decide)
  · have hcheck : (s.taken p).checkReply p reply = some .inletClosed := by
      rw [hreply, State.checkReply_closed hn (by rwa [State.taken_inlet])]
    exact hbare (State.checkSend_reply htarget hchecks hcheck) (by decide) (by decide)
  · have hcheck : (s.taken p).checkReply p reply = some .noFamily := by
      rw [hreply, State.checkReply_noFamily (s := s.taken p) hn (by rwa [State.taken_inlet]) hnone]
    exact hbare (State.checkSend_reply htarget hchecks hcheck) (by decide) (by decide)
  · have hblock := hrefuses (State.checkSend_store htarget hchecks
      (State.checkReply_none (State.taken_replyPasses hreply)) (State.checkStore_full (by rw [hinlet]; exact hfull)))
    refine ⟨_, hexec, ?_⟩
    have hline := takeRequest_counted (k := .send) rfl h.1 hgate hblock (Calm.onStore _ _) (State.onStore_drives p _ _) (tag := tag)
    simp only [refused]
    rw [State.answer_closed_eq, State.onStore_onCtl]
    exact hline

end Sys2Proof.Machine

/-! PROOFS. CLOSE_INLET (02): the families it revokes, the queue it drains or discards, and the inlet it leaves. -/

namespace Sys2Proof.Machine

/-! ### The families a close revokes -/

theorem length_allFrom {α : Type} (p : α → Bool) (xs : List α) (k : Nat) : (allFrom p xs k).length = xs.countP p := by
  induction xs generalizing k with
  | nil => rfl
  | cons x xs ih =>
    rw [allFrom, List.countP_cons]
    split_ifs
    · rw [List.length_cons, ih]
    · rw [ih, Nat.add_zero]

/-- A table has as many matching records as it counts. -/
theorem Tab.length_matching {n : Nat} {α : Type} (p : α → Bool) (t : Tab n α) : (t.matching p).length = t.count p := by
  have hsome : ∀ m ∈ allFrom p t.cells 0, (fin? n m).isSome = true := fun m hm => by
    obtain ⟨k, hk, rfl, -⟩ := mem_allFrom.mp hm
    have hlt : 0 + k < n := by rw [Nat.zero_add, ← t.len]; exact hk
    simp only [fin?, dif_pos hlt, Option.isSome_some]
  rw [Tab.matching, List.filterMap_length_eq_length.mpr hsome, length_allFrom, Tab.count]

theorem State.length_activeFamilies (s : State) (pick : Family → Bool) : (s.activeFamilies pick).length =
    (List.finRange 256).countP fun f => (s.family f).any fun x => decide (x.state = .active) && pick x := by
  rw [State.activeFamilies, Tab.length_matching, Tab.count_eq]
  refine List.countP_congr fun f _ => ?_
  change _ ↔ (s.families.get f).any _ = true
  cases s.families.get f <;> rfl

/-! ### The queue drained or discarded -/

theorem State.OnlyLowered.endEnclosures (s : State) (p : Port) (reason : RouteDropReason) (es : List Enclosure) :
    State.OnlyLowered s (s.endEnclosures p reason es).1 := by
  induction es generalizing s with
  | nil => exact .of_eq (fun _ => rfl) fun _ => rfl
  | cons e es ih =>
    cases e with
    | route f mode rights quota st =>
      cases st with
      | inTransit => exact (State.OnlyLowered.endCopy s f p reason).trans (ih _)
      | reserved i => exact ih s
      | dropped why => exact ih s
    | grant w mode rights st =>
      cases st with
      | inTransit => exact (State.OnlyLowered.lowerWindow s w).trans (ih _)
      | reserved i => exact ih s
      | dropped why => exact ih s

theorem State.OnlyLowered.decrement (s : State) (d : Sender) : State.OnlyLowered s (s.decrement d) := by
  cases d with
  | controller => exact .of_eq (fun _ => rfl) fun _ => rfl
  | agent q generation slot serial =>
    unfold State.decrement
    dsimp only
    split_ifs
    · split
      · split_ifs
        · exact .setRoute ..
        · exact .of_eq (fun _ => rfl) fun _ => rfl
      · exact .of_eq (fun _ => rfl) fun _ => rfl
    · exact .of_eq (fun _ => rfl) fun _ => rfl

theorem State.OnlyLowered.destroy (s : State) (p : Port) (i : Fin 16) (d : Descriptor) (c : DestroyCause) (e : List NoticeCall) :
    State.OnlyLowered s (s.destroy p i d c e) := by
  have hout : State.OnlyLowered s (s.takeOut p i d) := .of_eq (fun _ => rfl) fun _ => rfl
  exact ((hout.trans (.decrement _ d.sender)).trans (.endEnclosures _ p c.route d.enclosures)).trans
    (.of_eq (NoticesApart.notifyAll _ _).family (NoticesApart.notifyAll _ _).window)

/-- The destruction of a message of an inlet other than 0 changes of that inlet its queue alone; notices go to inlet 0. -/
theorem State.destroy_inlet (s : State) (p : Port) {i : Fin 16} (hi : i ≠ 0) (d : Descriptor) (c : DestroyCause)
    (e : List NoticeCall) :
    (s.destroy p i d c e).inlet p i = { s.inlet p i with queue := (s.inlet p i).queue.erase d } :=
  calc (s.destroy p i d c e).inlet p i
    _ = (((s.takeOut p i d).decrement d.sender).endEnclosures p c.route d.enclosures).1.inlet p i :=
      (NoticesApart.notifyAll _ _).inletOther p hi
    _ = (s.takeOut p i d).inlet p i :=
      ((TablesOnly.endEnclosures _ p c.route d.enclosures).inlet p i).trans ((TablesOnly.decrement _ d.sender).inlet p i)
    _ = { s.inlet p i with queue := (s.inlet p i).queue.erase d } := s.takeOut_inlet p i d

theorem filter_erase_of_not {α : Type} [DecidableEq α] {q : α → Bool} {d : α} (h : ¬ q d = true) (xs : List α) :
    (xs.erase d).filter q = xs.filter q := by
  induction xs with
  | nil => rfl
  | cons x xs ih =>
    by_cases hx : x = d
    · rw [hx, List.erase_cons_head, List.filter_cons_of_neg h]
    · rw [List.erase_cons_tail (by simpa using hx), List.filter_cons, List.filter_cons, ih]

/-- DISCARD leaves in an inlet other than 0 what is not QUEUED, and counts what was (R27). -/
theorem State.discardQueued_inlet {p : Port} {i : Fin 16} (hi : i ≠ 0) {k : Nat} {s : State}
    (hk : ((s.inlet p i).queue.filter fun d => decide (d.lifecycle = .queued)).length ≤ k) :
    (State.discardQueued p i k s).1.inlet p i =
      { s.inlet p i with queue := (s.inlet p i).queue.filter fun d => decide (d.lifecycle ≠ .queued) } ∧
    (State.discardQueued p i k s).2 = ((s.inlet p i).queue.filter fun d => decide (d.lifecycle = .queued)).length := by
  have hdone {s : State} (h : (s.inlet p i).queue.filter (fun d => decide (d.lifecycle = .queued)) = []) :
      s.inlet p i = { s.inlet p i with queue := (s.inlet p i).queue.filter fun d => decide (d.lifecycle ≠ .queued) } := by
    have hall : (s.inlet p i).queue.filter (fun d => decide (d.lifecycle ≠ .queued)) = (s.inlet p i).queue :=
      List.filter_eq_self.mpr fun d hd => by simpa using List.filter_eq_nil_iff.mp h d hd
    rw [hall]
  induction k generalizing s with
  | zero =>
    have hnone := List.eq_nil_of_length_eq_zero (Nat.le_zero.mp hk)
    exact ⟨hdone hnone, by rw [hnone]; rfl⟩
  | succ k ih =>
    cases hqueued : (s.inlet p i).queue.filter fun d => decide (d.lifecycle = .queued) with
    | nil =>
      simp only [State.discardQueued, List.find?_eq_none.2 (List.filter_eq_nil_iff.1 hqueued)]
      exact ⟨hdone hqueued, rfl⟩
    | cons d ds =>
      obtain ⟨hfind, herase⟩ := filter_erase_head hqueued
      have hrest : ((s.inlet p i).queue.erase d).filter (fun d => decide (d.lifecycle ≠ .queued)) =
          (s.inlet p i).queue.filter fun d => decide (d.lifecycle ≠ .queued) :=
        filter_erase_of_not (by simpa using List.find?_some hfind) _
      have hinlet := s.destroy_inlet p hi d .discard []
      have hk' : ((s.destroy p i d .discard []).inlet p i).queue.filter (fun d => decide (d.lifecycle = .queued)) = ds := by
        rw [hinlet]
        exact herase
      obtain ⟨hleft, hcount⟩ := ih (s := s.destroy p i d .discard []) (by
        rw [hk']
        rw [hqueued] at hk
        exact Nat.le_of_succ_le_succ hk)
      rw [hk'] at hcount
      simp only [State.discardQueued, hfind, hleft, hcount, hinlet, hrest, List.length_cons, and_self]

theorem MessagesApart.discardQueued (p : Port) (i : Fin 16) (k : Nat) (s : State) :
    MessagesApart p s (State.discardQueued p i k s).1 := by
  induction k generalizing s with
  | zero => exact .refl p s
  | succ k ih =>
    unfold State.discardQueued
    split
    · exact (MessagesApart.destroy s p i _ _ _).trans (ih _)
    · exact .refl p s

theorem State.OnlyLowered.discardQueued (p : Port) (i : Fin 16) (k : Nat) (s : State) :
    State.OnlyLowered s (State.discardQueued p i k s).1 := by
  induction k generalizing s with
  | zero => exact .of_eq (fun _ => rfl) fun _ => rfl
  | succ k ih =>
    unfold State.discardQueued
    split
    · exact (State.OnlyLowered.destroy s p i _ _ _).trans (ih _)
    · exact .of_eq (fun _ => rfl) fun _ => rfl

/-- The queue of an inlet after a close in DISCARD or DRAIN, and how many messages it destroys (R26, R27). -/
def State.drained (s : State) (p : Port) (i : Fin 16) (discard : Bool) : State × Nat :=
  if discard then State.discardQueued p i (s.inlet p i).queue.length s else (s, 0)

/-- The messages a close destroys and those it leaves (R26, R27). -/
def Inlet.doomed (x : Inlet) (discard : Bool) : List Descriptor :=
  if discard then x.queue.filter fun d => decide (d.lifecycle = .queued) else []

def Inlet.kept (x : Inlet) (discard : Bool) : List Descriptor :=
  if discard then x.queue.filter fun d => decide (d.lifecycle ≠ .queued) else x.queue

theorem Inlet.length_doomed (x : Inlet) (discard : Bool) :
    (x.doomed discard).length = x.queue.length - (x.kept discard).length := by
  cases discard with
  | false => simp [Inlet.doomed, Inlet.kept]
  | true =>
    have hsum := List.length_eq_length_filter_add (l := x.queue) fun d => decide (d.lifecycle = .queued)
    simp only [Inlet.doomed, Inlet.kept, if_true, ← decide_not, ne_eq] at hsum ⊢
    omega

section
variable (s : State) (p : Port) (i : Fin 16) (discard : Bool)

theorem State.drained_inlet (hi : i ≠ 0) : (s.drained p i discard).1.inlet p i =
    { s.inlet p i with queue := (s.inlet p i).kept discard } := by
  cases discard with
  | false => rfl
  | true => exact (State.discardQueued_inlet hi (List.length_filter_le ..)).1

theorem State.drained_count (hi : i ≠ 0) : (s.drained p i discard).2 = ((s.inlet p i).doomed discard).length := by
  cases discard with
  | false => rfl
  | true => exact (State.discardQueued_inlet hi (List.length_filter_le ..)).2

theorem State.drained_apart : MessagesApart p s (s.drained p i discard).1 := by
  cases discard with
  | false => exact .refl p s
  | true => exact .discardQueued p i _ s

theorem State.drained_lowered : State.OnlyLowered s (s.drained p i discard).1 := by
  cases discard with
  | false => exact .of_eq (fun _ => rfl) fun _ => rfl
  | true => exact .discardQueued p i _ s

theorem State.drained_calm : Calm s (s.drained p i discard).1 := by
  cases discard with
  | false => exact Calm.refl s
  | true => exact Calm.discardQueued p i _ s

variable {s p i discard}

/-- What the statement says of the messages destroyed leads to the state the close goes on from. -/
theorem State.drained_of_destroys {u : State} (hi : i ≠ 0)
    (h : Destroys p .discard s (((s.inlet p i).doomed discard).map fun d => (i, d)) u) : (s.drained p i discard).1 = u := by
  cases discard with
  | false => cases h; rfl
  | true => exact congrArg Prod.fst (Destroys.discardQueued hi rfl (List.length_filter_le ..) h)

end

/-! ### The answers -/

theorem exec_closeInlet (p : Port) (tag : Byte) (i : Fin 16) (discard : Bool) (s : State) :
    exec (.closeInlet p tag (.fields { inlet := i.val, mode := discard.toNat })) s =
      .next (takeRequest .closeInlet p tag
        (some (closeInletBlock p { inlet := i, mode := if discard then .discard else .drain })) s) := by
  rw [exec_request rfl rfl]
  cases discard <;> simp [requestBlock, formOf, formCloseInlet, fin?_val, closeMode?]

section
variable {s : State} {p : Port} {o : CloseInletOp}

theorem closeInletBlock_fixed (h : o.inlet = 0) : closeInletBlock p o s = (s, .bare .fixed) := by
  rw [closeInletBlock, if_pos h]

variable (h : o.inlet ≠ 0)
include h

theorem closeInletBlock_closed (hclosed : (s.inlet p o.inlet).state = .closed) :
    closeInletBlock p o s = (s, .bare .already) := by
  rw [closeInletBlock, if_neg h, hclosed]

theorem closeInletBlock_draining (hdraining : (s.inlet p o.inlet).state = .draining) (hmode : o.mode = .drain) :
    closeInletBlock p o s = (s, .bare .already) := by
  rw [closeInletBlock, if_neg h, hdraining, hmode]

theorem closeInletBlock_closes (hstate : (s.inlet p o.inlet).state = .opened ∨
    ((s.inlet p o.inlet).state = .draining ∧ o.mode = .discard)) : closeInletBlock p o s = s.closeInlet p o := by
  rw [closeInletBlock, if_neg h]
  obtain hopen | ⟨hdraining, hmode⟩ := hstate
  · rw [hopen]
  · rw [hdraining, hmode]

end

/-! ### The close carried out -/

/-- The state of an inlet in which a queue remains (R26, R27). -/
def InletState.after (rest : List Descriptor) : InletState := if rest = [] then .closed else .draining

/-- The state in which a close destroys messages: the families bound to an OPEN inlet are revoked (R25). -/
def State.cutInlet (s : State) (p : Port) (i : Fin 16) : State :=
  if (s.inlet p i).state = .opened then
    s.familiesRevoked fun x => decide (x.state = .active ∧ x.creator = p ∧ x.generation = (s.session p).generation ∧
      x.targetInlet = i)
  else s

section
variable (s : State) (p : Port) (i : Fin 16)

theorem State.activeFamilies_congr {pick pick' : Family → Bool} (h : ∀ x, x.state = .active → pick x = pick' x) :
    s.activeFamilies pick = s.activeFamilies pick' := by
  unfold State.activeFamilies
  congr 1
  funext slot
  cases slot with
  | none => rfl
  | some x =>
    by_cases hx : x.state = .active
    · simp only [h x hx]
    · simp only [hx, decide_false, Bool.false_and]

/-- An OPEN inlet's bound families, as the statement picks them. -/
theorem State.boundFamilies_opened (h : (s.inlet p i).state = .opened) : s.boundFamilies p i = s.activeFamilies fun x =>
    decide (x.state = .active ∧ x.creator = p ∧ x.generation = (s.session p).generation ∧ x.targetInlet = i) := by
  simp only [State.boundFamilies, h]
  exact s.activeFamilies_congr fun x hx => by simp [boundTo, createdBy, hx, Bool.and_assoc]

theorem State.boundFamilies_draining (h : (s.inlet p i).state ≠ .opened) : s.boundFamilies p i = [] := by
  unfold State.boundFamilies
  split
  next hopen => exact absurd hopen h
  next => rfl
  next => rfl

theorem State.revoke_boundFamilies : s.revokeFamilies (s.boundFamilies p i) = s.cutInlet p i := by
  unfold State.cutInlet
  split_ifs with hopen
  · rw [s.boundFamilies_opened p i hopen, State.revokeFamilies_active]
  · rw [s.boundFamilies_draining p i hopen]
    rfl

theorem State.length_boundFamilies : (s.boundFamilies p i).length =
    if (s.inlet p i).state = .opened then
      (List.finRange 256).countP fun f => (s.family f).any fun x => decide (x.state = .active ∧ x.creator = p ∧
        x.generation = (s.session p).generation ∧ x.targetInlet = i)
    else 0 := by
  split_ifs with hopen
  · rw [s.boundFamilies_opened p i hopen, State.length_activeFamilies]
    refine List.countP_congr fun f _ => ?_
    cases s.family f with
    | none => rfl
    | some x => by_cases hx : x.state = .active <;> simp [hx]
  · rw [s.boundFamilies_draining p i hopen]
    rfl

theorem State.cutInlet_tables : TablesOnly s (s.cutInlet p i) := by
  rw [← State.revoke_boundFamilies]
  exact TablesOnly.revokeFamilies s _

theorem State.cutInlet_bound {f : Fin 256} {x y : Family} (hopen : (s.inlet p i).state = .opened) (hx : s.family f = some x)
    (hbound : x.state = .active ∧ x.creator = p ∧ x.generation = (s.session p).generation ∧ x.targetInlet = i)
    (hy : (s.cutInlet p i).family f = some y) : y.state = .revoked := by
  have hslot : s.families.get f = some x := hx
  simp only [State.cutInlet, if_pos hopen, State.family, State.familiesRevoked, Tab.get_map, hslot, Option.map_some,
    if_pos (show x.state = .active ∧ decide _ = true from ⟨hbound.1, decide_eq_true hbound⟩)] at hy
  cases hy
  rfl

end

theorem State.closeInlet_drained (s : State) (p : Port) (i : Fin 16) (discard : Bool) :
    s.closeInlet p { inlet := i, mode := if discard then .discard else .drain } =
      ((((s.revokeFamilies (s.boundFamilies p i)).drained p i discard).1.shutInlet p i),
       .now .ok (.closeInlet ((((s.revokeFamilies (s.boundFamilies p i)).drained p i discard).1.shutInlet p i).inlet p i).state
        ((s.revokeFamilies (s.boundFamilies p i)).drained p i discard).2 (s.boundFamilies p i).length)) := by
  cases discard <;> rfl

/-- A close carried out: the cut, the queue drained or discarded, and the inlet left CLOSED or DRAINING (R25 to R27). -/
theorem State.closeInlet_eq (s : State) (p : Port) {i : Fin 16} (hi : i ≠ 0) (discard : Bool) :
    s.closeInlet p { inlet := i, mode := if discard then .discard else .drain } =
      (((s.cutInlet p i).drained p i discard).1.onInlet p i (fun x =>
        { x with state := .after ((s.inlet p i).kept discard),
                 credit := if (s.inlet p i).kept discard = [] then 0 else x.credit }),
       .now .ok (.closeInlet (.after ((s.inlet p i).kept discard)) ((s.inlet p i).doomed discard).length
        (s.boundFamilies p i).length)) := by
  have hcut := (s.cutInlet_tables p i).inlet p i
  have hinlet := (s.cutInlet p i).drained_inlet p i discard hi
  have hcount := (s.cutInlet p i).drained_count p i discard hi
  rw [hcut] at hinlet hcount
  have hshut : ((s.cutInlet p i).drained p i discard).1.shutInlet p i =
      ((s.cutInlet p i).drained p i discard).1.onInlet p i fun x =>
        { x with state := .after ((s.inlet p i).kept discard),
                 credit := if (s.inlet p i).kept discard = [] then 0 else x.credit } := by
    unfold State.shutInlet State.onInlet
    refine State.onCol_congr _ p ?_
    have hget : ((((s.cutInlet p i).drained p i discard).1.col p).inlets.get i).queue = (s.inlet p i).kept discard :=
      congrArg Inlet.queue hinlet
    simp only [hget, List.isEmpty_iff, InletState.after]
    split_ifs <;> rfl
  have hstate : ((((s.cutInlet p i).drained p i discard).1.onInlet p i fun x =>
      { x with state := .after ((s.inlet p i).kept discard),
               credit := if (s.inlet p i).kept discard = [] then 0 else x.credit }).inlet p i).state =
      .after ((s.inlet p i).kept discard) := by
    rw [State.onInlet_inlet_same]
  rw [← hshut] at hstate ⊢
  rw [State.closeInlet_drained, State.revoke_boundFamilies, hcount, hstate]

/-- Settles O15: the inlet's state and the mode choose the answer; a close carried out is the cut, the queue drained or
discarded and the inlet left, of which the statement reads each part. -/
theorem closeInletCloses : Obligations.CloseInletCloses := by
  unfold Obligations.CloseInletCloses
  intro s p tag i discard h cmd
  have hgate : s.gate p .closeInlet = none := State.gate_serves _ h rfl
  have hexec := exec_closeInlet p tag i discard s
  have hinlet : (s.taken p).inlet p i = s.inlet p i := State.taken_inlet ..
  refine ⟨fun b hb => turnsAway_of_malformed (k := .closeInlet) rfl h.1 ?_, fun hfixed => ?_, fun hi hclosed => ?_,
    fun hi hdraining hdrain => ?_, fun hi hstate => ?_⟩
  · rw [exec_request rfl rfl, requestBlock, formOf_eq_none formCloseInlet_isSome hb]; rfl
  · exact turnsAway_of_block (k := .closeInlet) rfl h.1 hgate hexec (closeInletBlock_fixed hfixed)
  · exact turnsAway_of_block (k := .closeInlet) rfl h.1 hgate hexec (closeInletBlock_closed hi (hinlet ▸ hclosed))
  · exact turnsAway_of_block (k := .closeInlet) rfl h.1 hgate hexec
      (closeInletBlock_draining hi (hinlet ▸ hdraining) (by rw [hdrain]; rfl))
  intro rest doomed bound revoked state cut
  have hcut : (s.taken p).cutInlet p i = cut := by
    unfold State.cutInlet
    rw [hinlet, State.taken_session]
  have hrevoked : ((s.taken p).boundFamilies p i).length = revoked := by
    rw [State.length_boundFamilies, hinlet, State.taken_session]
    rfl
  have hblock := (closeInletBlock_closes (s := s.taken p)
    (o := { inlet := i, mode := if discard then .discard else .drain }) hi (by
      rw [hinlet]
      exact hstate.imp_right fun ⟨hdraining, hdiscard⟩ => ⟨hdraining, by rw [hdiscard]; rfl⟩)).trans
    ((s.taken p).closeInlet_eq p hi discard)
  rw [hinlet, hcut, hrevoked] at hblock
  have htables : TablesOnly (s.taken p) cut := hcut ▸ (s.taken p).cutInlet_tables p i
  have hdestroyed (u : State) (hu : Destroys p .discard cut (doomed.map fun d => (i, d)) u) :
      (cut.drained p i discard).1 = u := by
    refine State.drained_of_destroys hi ?_
    rw [htables.inlet, hinlet]
    exact hu
  have hleft := cut.drained_inlet p i discard hi
  rw [htables.inlet, hinlet] at hleft
  have hapart : MessagesApart p (s.taken p) (cut.drained p i discard).1 :=
    (htables.messagesApart p).trans (cut.drained_apart p i discard)
  have hcalm : Calm (s.taken p) (cut.drained p i discard).1 := htables.calm.trans (cut.drained_calm p i discard)
  have hlowered := cut.drained_lowered p i discard
  generalize (cut.drained p i discard).1 = v at *
  have hresponses : ((v.onInlet p i fun x =>
      { x with state := .after ((s.inlet p i).kept discard),
               credit := if (s.inlet p i).kept discard = [] then 0 else x.credit }).ctl p).responses = (s.ctl p).responses := by
    rw [State.onInlet_ctl, hcalm.ctl, State.taken_ctl, if_pos rfl]
  have hrun := takeRequest_served tag h.1 hgate hblock hresponses
  refine ⟨_, hexec.trans (congrArg _ hrun), fun u hu => ?_, ?_, ?_, ?_, ?_, ?_, ?_, fun q => ⟨?_, ?_, ?_⟩⟩
  · rw [← hdestroyed u hu]
    exact followAtn_lines ..
  · rw [followAtn_inlet, State.onCtl_inlet, State.onInlet_inlet_same, hleft]
    rfl
  · rw [followAtn_ctl, State.onCtl_ctl_same, hresponses, Inlet.length_doomed]
    rfl
  · intro hopen f x y hx hb hy
    rw [followAtn_family] at hy
    obtain ⟨z, hz, hyz⟩ := hlowered.family f y hy
    rw [hyz]
    rw [← hcut] at hz
    exact State.cutInlet_bound (x := x) (y := z) (s.taken p) p i (hinlet ▸ hopen) hx
      (by rw [State.taken_session]; exact of_decide_eq_true hb) hz
  · rw [followAtn_stream, State.onCtl_stream, State.onInlet_stream, hapart.stream]
    simp [State.taken]
  · rw [followAtn_bulk]
    exact hcalm.bulk
  · rw [followAtn_config]
    exact hcalm.config
  · rw [followAtn_engine, State.onCtl_engine, State.onInlet_engine, hapart.engine]
    simp [State.taken, State.noted]
  · rw [followAtn_session, State.onCtl_session, State.onInlet_session, hapart.session, State.taken_session]
  · rw [followAtn_session, State.onCtl_session, State.onInlet_session, hapart.session, State.taken_session]

end Sys2Proof.Machine

/-! PROOFS. The inlet table's step of a sweep (02, 06). -/

namespace Sys2Proof.Machine

/-! ### The withdrawing port hears no notice -/

theorem State.destroy_session {s : State} {p : Port} (h : (s.session p).state = .withdrawing) (i : Fin 16) (d : Descriptor)
    (c : DestroyCause) (e : List NoticeCall) : (s.destroy p i d c e).session p = s.session p := by
  have htables := (TablesOnly.decrement (s.takeOut p i d) d.sender).trans (TablesOnly.endEnclosures _ p c.route d.enclosures)
  have hsession : ((((s.takeOut p i d).decrement d.sender).endEnclosures p c.route d.enclosures).1).session p = s.session p := by
    rw [htables.session]
    simp [State.takeOut]
  have hdeaf := State.notifyAll_deaf (s := (((s.takeOut p i d).decrement d.sender).endEnclosures p c.route d.enclosures).1) (p := p)
    (e ++ (((s.takeOut p i d).decrement d.sender).endEnclosures p c.route d.enclosures).2 ++ d.undelivered c.loss)
    (by rw [hsession, h]; decide) (by rw [hsession, h]; decide)
  exact (congrArg Column.session hdeaf).trans hsession

theorem State.sweepQueue_session {s : State} {p : Port} (h : (s.session p).state = .withdrawing) (i : Fin 16) (k : Nat) :
    (State.sweepQueue p i k s).session p = s.session p := by
  induction k generalizing s with
  | zero => rfl
  | succ k ih =>
    unfold State.sweepQueue
    split
    next d ds _ =>
      have hd := State.destroy_session h i d .withdrawal []
      exact (ih (by rw [hd, h])).trans hd
    next => rfl

theorem State.sweepInlets_session {s : State} {p : Port} (h : (s.session p).state = .withdrawing) (is : List (Fin 16)) :
    (is.foldl (State.sweepInlet p) s).session p = s.session p := by
  induction is generalizing s with
  | nil => rfl
  | cons i is ih =>
    have hi : (State.sweepInlet p s i).session p = s.session p := State.sweepQueue_session h i _
    exact (ih (by rw [hi, h])).trans hi

theorem Calm.sweptInlets (s : State) (p : Port) (is : List (Fin 16)) : Calm s (is.foldl (State.sweepInlet p) s) :=
  Calm.foldl _ (fun s i => Calm.sweepQueue p i _ s) s is

/-! ### The step -/

theorem State.due_eq {s : State} {p : Port} {w : Sweep} {owner : Sweep → Bool} (hstate : (s.session p).state = .withdrawing)
    (hsweep : (s.session p).sweep = some w) (hw : owner w = true) : s.due p owner = true := by
  simp only [State.due, hstate, hsweep, hw, decide_true, Bool.and_self]

/-- The report of an owner (R120). -/
theorem State.report_eq {s : State} {p : Port} {w : Sweep} (hsweep : (s.session p).sweep = some w) (f : Sweep → Sweep) :
    s.report p f = s.onSession p fun x => { x with sweep := some (f w) } := by
  unfold State.report State.onSession
  refine State.onCol_congr s p ?_
  have hget : (s.col p).session.sweep = some w := hsweep
  simp only [hget, Option.map_some]

/-- An agent's inlets and lanes at their reset values, and the inlet table's report taken (R37, R120). -/
def Column.inletsReset (w : Sweep) (c : Column) : Column :=
  { c with inlets := freshInlets, lanes := freshLanes, session := { c.session with sweep := some { w with inletTable := false } } }

/-- The inlet table's step: the messages destroyed, and the records reset (R36, R37, R120). -/
theorem State.sweepInlets_eq {s : State} {p : Port} {w : Sweep} (hstate : (s.session p).state = .withdrawing)
    (hsweep : (s.session p).sweep = some w) :
    s.sweepInlets p = ((List.finRange 16).foldl (State.sweepInlet p) s).onCol p (Column.inletsReset w) := by
  have hkept := State.sweepInlets_session hstate (List.finRange 16)
  unfold State.sweepInlets
  dsimp only
  generalize (List.finRange 16).foldl (State.sweepInlet p) s = v at *
  have hreset : ((v.onCol p fun c => { c with inlets := freshInlets, lanes := freshLanes }).session p).sweep = some w := by
    have hsame := State.onCol_keeps v p (g := fun c => { c with inlets := freshInlets, lanes := freshLanes }) Column.session
      (fun _ => rfl) p
    exact ((congrArg Session.sweep hsame).trans (congrArg Session.sweep hkept)).trans hsweep
  rw [State.report_eq hreset, State.onSession, State.onCol_onCol]
  rfl

/-- Settles O47: the queues are destroyed one after another; the port, WITHDRAWING, hears no notice of it. -/
theorem inletTableSweepEmpties : Obligations.InletTableSweepEmpties := by
  unfold Obligations.InletTableSweepEmpties
  intro s p w hhigh hstate hsweep hw
  have hexec : exec (.inletTableSweep p) s = .next (followAtn s (s.sweepInlets p)) := by
    change Host.Outcome.next (event s _) = _
    rw [event_high _ hhigh, if_pos (State.due_eq hstate hsweep hw)]
  rw [State.sweepInlets_eq hstate hsweep] at hexec
  have hdestroyed (u : State) (hu : Destroys p .withdrawal s
      ((List.finRange 16).flatMap fun i => (s.inlet p i).queue.map fun d => (i, d)) u) :
      (List.finRange 16).foldl (State.sweepInlet p) s = u := Destroys.sweepInlets (List.nodup_finRange 16) hstate hu
  have hapart := MessagesApart.sweepInlets p s (List.finRange 16)
  have hcalm := Calm.sweptInlets s p (List.finRange 16)
  have hsession := State.sweepInlets_session hstate (List.finRange 16)
  generalize (List.finRange 16).foldl (State.sweepInlet p) s = v at *
  have hgeneration (q : Port) : (v.session q).generation = (s.session q).generation := by rw [hapart.session q]
  refine ⟨_, hexec, fun u hu => ?_, fun i => ?_, fun l => ?_, ?_, fun q i hq => ?_, fun q => ⟨?_, ?_, ?_, ?_⟩, ?_, ?_⟩
  · rw [← hdestroyed u hu]
    exact followAtn_lines ..
  · rw [followAtn_inlet, State.inlet, State.onCol_col_same]
    exact freshInlets_get_eq i
  · rw [followAtn_lane, State.lane, State.onCol_col_same]
    exact Tab.get_all ..
  · rw [followAtn_session, State.session, State.onCol_col_same, ← hsession]
    rfl
  · obtain ⟨new, refused, hnew, hother, hinlet⟩ := hapart.inlet q i hq
    have hkept : (v.onCol p (Column.inletsReset w)).inlet q i = v.inlet q i := by
      rw [State.inlet, State.onCol_col_ne _ _ hq]
      rfl
    rw [followAtn_inlet, hkept, hinlet]
    exact ⟨new, rfl, hnew, hother, rfl⟩
  · rw [followAtn_engine]
    exact (State.onCol_keeps v p (g := Column.inletsReset w) Column.engine (fun _ => rfl) q).trans (hapart.engine q)
  · rw [followAtn_session]
    exact (State.onCol_keeps v p (g := Column.inletsReset w) (fun c => c.session.state) (fun _ => rfl) q).trans
      (hapart.sessionState q)
  · rw [followAtn_session]
    exact (State.onCol_keeps v p (g := Column.inletsReset w) (fun c => c.session.generation) (fun _ => rfl) q).trans
      (hgeneration q)
  · rw [followAtn_stream]
    exact (State.onCol_keeps v p (g := Column.inletsReset w) Column.stream (fun _ => rfl) q).trans (hapart.stream q)
  · rw [followAtn_bulk]
    exact hcalm.bulk
  · rw [followAtn_config]
    exact hcalm.config

end Sys2Proof.Machine

/-! PROOFS. The route table's and the grant table's steps of a sweep (03, 07). -/

namespace Sys2Proof.Machine

/-! ### The notice generator reads neither tables nor the progress of a sweep -/

theorem State.onStore_onCol (s : State) (p : Port) (g : Column → Column) (f : Store → Store) :
    (s.onCol p g).onStore f = (s.onStore f).onCol p g := rfl

/-- A column with other inlets, losses and wake pending: what a notice can touch (R14, R17, R24). -/
def Column.touched (c : Column) (inlets : Tab 16 Inlet) (lost : Nat) (wake : Bool) : Column :=
  { c with inlets := inlets, session := { c.session with lost := lost, wakePending := wake } }

/-- A change of a column that neither the notice generator reads nor a notice touches. -/
structure Column.Aside (g : Column → Column) : Prop where
  inlets : ∀ c, (g c).inlets = c.inlets
  state : ∀ c, (g c).session.state = c.session.state
  generation : ∀ c, (g c).session.generation = c.session.generation
  lost : ∀ c, (g c).session.lost = c.session.lost
  wake : ∀ c, (g c).session.wakePending = c.session.wakePending
  apart : ∀ c inlets lost wake, g (c.touched inlets lost wake) = (g c).touched inlets lost wake

theorem Column.Aside.routes (f : Tab 63 (Option RouteCopy) → Tab 63 (Option RouteCopy)) :
    Column.Aside fun c => { c with routes := f c.routes } :=
  ⟨fun _ => rfl, fun _ => rfl, fun _ => rfl, fun _ => rfl, fun _ => rfl, fun _ _ _ _ => rfl⟩

theorem Column.Aside.sweep (f : Option Sweep → Option Sweep) :
    Column.Aside fun c => { c with session := { c.session with sweep := f c.session.sweep } } :=
  ⟨fun _ => rfl, fun _ => rfl, fun _ => rfl, fun _ => rfl, fun _ => rfl, fun _ _ _ _ => rfl⟩

section
variable {s : State} {p : Port} {g : Column → Column} (h : Column.Aside g)
include h

theorem Column.Aside.inlet_eq (q : Port) (i : Fin 16) : (s.onCol p g).inlet q i = s.inlet q i := by
  rw [State.inlet, State.onCol_keeps s p Column.inlets h.inlets q]
  rfl

theorem Column.Aside.heard_iff (c : NoticeCall) :
    ((s.onCol p g).session c.port).live ∧ ((s.onCol p g).session c.port).generation = c.generation ↔
      (s.session c.port).live ∧ (s.session c.port).generation = c.generation := by
  have hstate := State.onCol_keeps s p (fun c => c.session.state) h.state c.port
  have hgeneration := State.onCol_keeps s p (fun c => c.session.generation) h.generation c.port
  simp only [State.session, Session.live, hstate, hgeneration]

theorem Column.Aside.noticeMessage_eq (c : NoticeCall) : (s.onCol p g).noticeMessage c = s.noticeMessage c := by
  have hdescriptors : (s.onCol p g).descriptors = s.descriptors :=
    State.descriptors_congr fun q => State.onCol_keeps s p Column.inlets h.inlets q
  have hlost := State.onCol_keeps s p (fun c => c.session.lost) h.lost c.port
  simp only [State.noticeMessage, State.freeDescriptor, State.freeCellNumbers, State.drawMessage, State.cellsHeld, hdescriptors, State.session,
    hlost]
  rfl

/-- A change of a column's inlets and of what its session has lost and wakes goes before or after a change aside. -/
theorem Column.Aside.onCol_comm (q : Port) {f : Column → Column} {inlets : Column → Tab 16 Inlet} {lost : Column → Nat}
    {wake : Column → Bool}
    (hf : ∀ c, f c = c.touched (inlets c) (lost c) (wake c))
    (hread : ∀ c, inlets (g c) = inlets c ∧ lost (g c) = lost c ∧ wake (g c) = wake c) :
    (s.onCol p g).onCol q f = (s.onCol q f).onCol p g := by
  refine State.ext_columns rfl fun k => ?_
  simp only [State.onCol_col]
  obtain ⟨hinlets, hlost, hwake⟩ := hread (s.col k)
  split_ifs
  · rw [hf, hf, h.apart, hinlets, hlost, hwake]
  all_goals rfl

theorem Column.Aside.onInlet_comm (q : Port) (i : Fin 16) (f : Inlet → Inlet) :
    (s.onCol p g).onInlet q i f = (s.onInlet q i f).onCol p g :=
  h.onCol_comm q (inlets := fun c => c.inlets.put i (f (c.inlets.get i))) (lost := fun c => c.session.lost)
    (wake := fun c => c.session.wakePending) (fun _ => rfl) fun c => ⟨by rw [h.inlets], h.lost c, h.wake c⟩

theorem Column.Aside.onSession_comm (q : Port) (lost : Nat → Nat) (wake : Bool → Bool) :
    (s.onCol p g).onSession q (fun x => { x with lost := lost x.lost, wakePending := wake x.wakePending }) =
      (s.onSession q fun x => { x with lost := lost x.lost, wakePending := wake x.wakePending }).onCol p g :=
  h.onCol_comm q (inlets := fun c => c.inlets) (lost := fun c => lost c.session.lost)
    (wake := fun c => wake c.session.wakePending) (fun _ => rfl) fun c => ⟨h.inlets c, by rw [h.lost], by rw [h.wake]⟩

theorem Column.Aside.noticed_comm (c : NoticeCall) : (s.onCol p g).noticed c = (s.noticed c).onCol p g := by
  have hmessage := h.noticeMessage_eq (s := s) (p := p) c
  have hdraw : (s.onCol p g).drawMessage.1 = s.drawMessage.1 := congrArg Descriptor.messageNumber hmessage
  have hstate : ((s.onCol p g).session c.port).state = (s.session c.port).state :=
    State.onCol_keeps s p (fun c => c.session.state) h.state c.port
  unfold State.noticed
  rw [hmessage, hdraw, hstate, h.inlet_eq]
  generalize (s.noticeMessage c) = d
  rw [State.onStore_onCol, h.onInlet_comm]
  exact h.onSession_comm c.port (fun _ => 0) fun wake =>
    if (s.session c.port).state = .dormant ∧ (s.inlet c.port 0).wake = true then true else wake

theorem Column.Aside.loseNotice_comm (c : NoticeCall) : (s.onCol p g).loseNotice c = (s.loseNotice c).onCol p g := by
  have hlost := h.onSession_comm (s := s) (p := p) c.port (fun lost => stepUpTo Config.stop8 lost) fun wake => wake
  unfold State.loseNotice
  dsimp only at hlost ⊢
  rw [hlost, State.onStore_onCol, h.onInlet_comm]

theorem Column.Aside.notify_comm (c : NoticeCall) : (s.onCol p g).notify c = (s.notify c).onCol p g := by
  have hheard := h.heard_iff (s := s) (p := p) c
  by_cases hears : (s.session c.port).live ∧ (s.session c.port).generation = c.generation
  · by_cases room : 1 ≤ s.store.freeDescriptors ∧ 1 ≤ s.store.freeCells ∧
        (s.inlet c.port 0).queue.length < (s.inlet c.port 0).depth
    · rw [State.notify_created hears room, State.notify_created (hheard.mpr hears) (by rw [h.inlet_eq]; exact room), h.noticed_comm]
    · rw [State.notify_lost hears room, State.notify_lost (hheard.mpr hears) (by rw [h.inlet_eq]; exact room), h.loseNotice_comm]
  · rw [State.notify_deaf hears, State.notify_deaf fun hd => hears (hheard.mp hd)]

theorem Column.Aside.notifyAll_comm (calls : List NoticeCall) : (s.onCol p g).notifyAll calls = (s.notifyAll calls).onCol p g := by
  induction calls generalizing s with
  | nil => rfl
  | cons c calls ih => exact (congrArg (State.notifyAll · calls) (h.notify_comm c)).trans ih

end

theorem State.notify_setFamily (s : State) (f : Fin 256) (x : Option Family) (c : NoticeCall) :
    (s.setFamily f x).notify c = (s.notify c).setFamily f x := by
  by_cases hears : (s.session c.port).live ∧ (s.session c.port).generation = c.generation
  · by_cases room : 1 ≤ s.store.freeDescriptors ∧ 1 ≤ s.store.freeCells ∧
        (s.inlet c.port 0).queue.length < (s.inlet c.port 0).depth
    · rw [State.notify_created hears room, State.notify_created (s := s.setFamily f x) hears room]
      rfl
    · rw [State.notify_lost hears room, State.notify_lost (s := s.setFamily f x) hears room]
      rfl
  · rw [State.notify_deaf hears, State.notify_deaf (s := s.setFamily f x) hears]

theorem State.notifyAll_setFamily (s : State) (f : Fin 256) (x : Option Family) (calls : List NoticeCall) :
    (s.setFamily f x).notifyAll calls = (s.notifyAll calls).setFamily f x := by
  induction calls generalizing s with
  | nil => rfl
  | cons c calls ih => exact (congrArg (State.notifyAll · calls) (s.notify_setFamily f x c)).trans (ih _)

theorem State.notifyAll_setRoute (s : State) (p : Port) (i : Fin 63) (x : Option RouteCopy) (calls : List NoticeCall) :
    (s.setRoute p i x).notifyAll calls = (s.notifyAll calls).setRoute p i x :=
  (Column.Aside.routes fun t => t.put i x).notifyAll_comm calls

theorem State.notifyAll_report (s : State) (p : Port) (f : Sweep → Sweep) (calls : List NoticeCall) :
    (s.report p f).notifyAll calls = (s.notifyAll calls).report p f :=
  (Column.Aside.sweep fun w => w.map f).notifyAll_comm calls

end Sys2Proof.Machine

/-! PROOFS. The slots a sweep frees, counted record by record (03, 07). -/

namespace Sys2Proof.Machine

/-! ### A fold that frees slots and lowers the records they name -/

section
variable {σ ι κ α β : Type} [DecidableEq κ] {step : σ → ι → σ} {named : σ → ι → Option κ} {slot : σ → ι → α}
  {record : σ → κ → Option β} {clear : α → α} {lower : β → Option β}

/-- What a step makes of its own slot stands at the end in every slot of a list without repetition. -/
theorem foldl_slot [DecidableEq ι] (hslot : ∀ s i j, slot (step s i) j = if j = i then clear (slot s j) else slot s j) {is : List ι}
    (hn : is.Nodup) (s : σ) (j : ι) : slot (is.foldl step s) j = if j ∈ is then clear (slot s j) else slot s j := by
  induction is generalizing s with
  | nil => rfl
  | cons i is ih =>
    obtain ⟨hi, hn⟩ := List.nodup_cons.mp hn
    rw [List.foldl_cons, ih hn, hslot]
    by_cases hj : j = i
    · subst hj
      rw [if_neg hi, if_pos rfl, if_pos List.mem_cons_self]
    · rw [if_neg hj]
      simp only [List.mem_cons, hj, false_or]

variable (hnamed : ∀ s i j, j ≠ i → named (step s i) j = named s j)
  (hrecord : ∀ s i f, record (step s i) f = if named s i = some f then (record s f).bind lower else record s f)
include hnamed hrecord

/-- A record is lowered once for every slot that names it. -/
theorem foldl_record {is : List ι} (hn : is.Nodup) (s : σ) (f : κ) :
    record (is.foldl step s) f = (Option.bind · lower)^[is.countP fun i => decide (named s i = some f)] (record s f) := by
  induction is generalizing s with
  | nil => rfl
  | cons i is ih =>
    obtain ⟨hi, hn⟩ := List.nodup_cons.mp hn
    have hcount : (is.countP fun j => decide (named (step s i) j = some f)) = is.countP fun j => decide (named s j = some f) :=
      List.countP_congr fun j hj => by rw [hnamed s i j (fun h => hi (h ▸ hj))]
    rw [List.foldl_cons, ih hn, hcount, hrecord, List.countP_cons]
    by_cases hf : named s i = some f
    · simp only [hf, if_true, decide_true, Function.iterate_succ_apply]
    · simp only [hf, if_false, decide_false, Bool.false_eq_true, Nat.add_zero]

end

/-- A count lowered `k` times in turn, its record gone when the count reaches 0, is lowered by `k` at once. -/
theorem iterate_lowered {β : Type} {count : β → Nat} {put : β → Nat → β} {lower : β → Option β}
    (hlower : ∀ x, lower x = if count x ≤ 1 then none else some (put x (count x - 1))) (hcount : ∀ x n, count (put x n) = n)
    (hput : ∀ x n m, put (put x n) m = put x m) (k : Nat) (o : Option β) : (Option.bind · lower)^[k] o =
      o.bind fun x => if k = 0 then some x else if count x ≤ k then none else some (put x (count x - k)) := by
  cases o with
  | none => exact Function.iterate_fixed rfl k
  | some x =>
    induction k with
    | zero => rfl
    | succ k ih =>
      rw [Function.iterate_succ_apply', ih]
      by_cases hk : k = 0
      · subst hk
        exact hlower x
      by_cases hgone : count x ≤ k
      · simp [hk, hgone, Nat.le_succ_of_le hgone]
      · have hlast : count x - k ≤ 1 ↔ count x ≤ k + 1 := by omega
        simp only [hk, hgone, if_false, Option.bind_some, hlower, hcount, hput, hlast, Nat.sub_sub, Nat.succ_ne_zero]

/-- A family after the ends of `k` copies (R45, R46). -/
theorem Family.iterate_lowered (k : Nat) (o : Option Family) : (Option.bind · Family.lowered)^[k] o = o.bind fun x =>
    if k = 0 then some x else if x.copies ≤ k then none else some { x with copies := x.copies - k } :=
  Machine.iterate_lowered (count := Family.copies) (put := fun x n => { x with copies := n }) (fun _ => rfl) (fun _ _ => rfl)
    (fun _ _ _ => rfl) k o

/-- A window after the ends of `k` grants (R130). -/
theorem Window.iterate_lowered (k : Nat) (o : Option Window) : (Option.bind · Window.lowered)^[k] o = o.bind fun x =>
    if k = 0 then some x else if x.grants ≤ k then none else some { x with grants := x.grants - k } :=
  Machine.iterate_lowered (count := Window.grants) (put := fun x n => { x with grants := n }) (fun _ => rfl) (fun _ _ => rfl)
    (fun _ _ _ => rfl) k o

/-! ### The grant table -/

theorem State.setWindow_self {s : State} {w : Fin 32} {x : Option Window} (h : s.window w = x) : s.setWindow w x = s := by
  subst h
  rw [State.setWindow, State.window, Tab.put_get]

theorem State.lowerWindow_bind (s : State) (w : Fin 32) : s.lowerWindow w = s.setWindow w ((s.window w).bind Window.lowered) := by
  cases hw : s.window w with
  | some x => exact State.lowerWindow_eq hw
  | none =>
    simp only [State.lowerWindow, hw]
    exact (State.setWindow_self hw).symm

/-- The window whose grant a sweep ends with slot `i` (R145). -/
def State.sweptWindow (s : State) (p : Port) (i : Fin 8) : Option (Fin 32) :=
  (s.grant p i).bind fun g => if g.state = .reserved then none else some g.window

/-- What a sweep leaves in a slot: a RESERVED entry (R145). -/
def Grant.unswept (slot : Option Grant) : Option Grant := slot.bind fun g => if g.state = .reserved then some g else none

section
variable (s : State) (p : Port) (i : Fin 8)

theorem State.sweepGrant_eq : State.sweepGrant p s i = match s.sweptWindow p i with
    | some w => (s.setGrant p i none).setWindow w ((s.window w).bind Window.lowered)
    | none => s := by
  cases hg : s.grant p i with
  | none => simp only [State.sweepGrant, State.sweptWindow, hg, Option.bind_none]
  | some g =>
    have hlower := (s.setGrant p i none).lowerWindow_bind g.window
    cases hstate : g.state <;> simp [State.sweepGrant, State.sweptWindow, hg, hstate, CopyState.swept, hlower]

theorem State.sweepGrant_grant (j : Fin 8) :
    (State.sweepGrant p s i).grant p j = if j = i then Grant.unswept (s.grant p j) else s.grant p j := by
  by_cases hj : j = i
  · subst hj
    cases hg : s.grant p j with
    | none => simp [State.sweepGrant_eq, State.sweptWindow, Grant.unswept, hg]
    | some g => by_cases hstate : g.state = .reserved <;> simp [State.sweepGrant_eq, State.sweptWindow, Grant.unswept, hg, hstate]
  · rw [State.sweepGrant_eq, if_neg hj]
    cases s.sweptWindow p i with
    | none => rfl
    | some w => simp [hj]

theorem State.sweepGrant_window (w : Fin 32) : (State.sweepGrant p s i).window w =
    if s.sweptWindow p i = some w then (s.window w).bind Window.lowered else s.window w := by
  rw [State.sweepGrant_eq]
  cases s.sweptWindow p i with
  | none => simp
  | some v =>
    by_cases hw : v = w
    · subst hw; simp
    · simp [hw, Ne.symm hw]

end

/-- Between `s` and `t` the grant table of `p` and windows changed at most. -/
structure State.GrantsApart (p : Port) (s t : State) : Prop where
  rest : t = { s with windows := t.windows, columns := t.columns }
  columns : ∀ q, t.col q = if q = p then { s.col q with grants := (t.col q).grants } else s.col q

theorem State.GrantsApart.refl (p : Port) (s : State) : State.GrantsApart p s s := ⟨rfl, fun _ => (ite_self _).symm⟩

theorem State.GrantsApart.trans {p : Port} {s t u : State} (h : State.GrantsApart p s t) (k : State.GrantsApart p t u) :
    State.GrantsApart p s u := by
  refine ⟨by rw [k.rest, h.rest], fun q => ?_⟩
  rw [k.columns q, h.columns q]
  split_ifs <;> rfl

theorem State.GrantsApart.tables {p : Port} {s t : State} (h : State.GrantsApart p s t) : TablesOnly s t := by
  refine ⟨by rw [h.rest], by rw [h.rest], fun q => ?_⟩
  rw [h.columns q]
  split_ifs <;> rfl

theorem State.onSession_sweep_atnDrive (s : State) (p : Port) (sweep : Option Sweep) (q : Port) :
    (s.onSession p fun x => { x with sweep := sweep }).atnDrive q = s.atnDrive q := by
  by_cases hq : q = p
  · subst hq
    refine State.atnDrive_congr rfl rfl rfl ?_ ?_ ?_ <;> simp [State.onSession, State.session, Column.waiting]
  · exact State.drive_onCol s p _ q hq

theorem State.GrantsApart.setGrant (s : State) (p : Port) (i : Fin 8) (x : Option Grant) :
    State.GrantsApart p s (s.setGrant p i x) := by
  refine ⟨rfl, fun q => ?_⟩
  by_cases hq : q = p
  · subst hq; simp [State.setGrant]
  · simp [State.setGrant, hq]

theorem State.GrantsApart.sweepGrant (p : Port) (s : State) (i : Fin 8) : State.GrantsApart p s (State.sweepGrant p s i) := by
  rw [State.sweepGrant_eq]
  cases s.sweptWindow p i with
  | none => exact .refl p s
  | some w => exact (State.GrantsApart.setGrant s p i none).trans ⟨rfl, fun _ => (ite_self _).symm⟩

theorem State.GrantsApart.foldl (p : Port) (s : State) (is : List (Fin 8)) :
    State.GrantsApart p s (is.foldl (State.sweepGrant p) s) := by
  induction is generalizing s with
  | nil => exact .refl p s
  | cons i is ih => exact (State.GrantsApart.sweepGrant p s i).trans (ih _)

section
variable (s : State) (p : Port)

theorem State.sweptGrants_grants : (((List.finRange 8).foldl (State.sweepGrant p) s).col p).grants =
    (s.col p).grants.map Grant.unswept := by
  refine Tab.ext_get fun i => ?_
  have hslot := foldl_slot (slot := fun s i => s.grant p i) (fun s i j => s.sweepGrant_grant p i j) (List.nodup_finRange 8) s i
  rw [if_pos (List.mem_finRange i)] at hslot
  rw [Tab.get_map]
  exact hslot

theorem State.sweptGrants_window (w : Fin 32) : ((List.finRange 8).foldl (State.sweepGrant p) s).window w =
    (s.window w).bind fun x =>
      let k := (List.finRange 8).countP fun i => decide (s.sweptWindow p i = some w)
      if k = 0 then some x else if x.grants ≤ k then none else some { x with grants := x.grants - k } := by
  have hnamed (s : State) (i j : Fin 8) (h : j ≠ i) : (State.sweepGrant p s i).sweptWindow p j = s.sweptWindow p j := by
    rw [State.sweptWindow, State.sweepGrant_grant, if_neg h]
    rfl
  exact (foldl_record hnamed (fun s i w => s.sweepGrant_window p i w) (List.nodup_finRange 8) s w).trans (Window.iterate_lowered _ _)

end

theorem State.sweptWindow_iff (s : State) (p : Port) (i : Fin 8) (w : Fin 32) : decide (s.sweptWindow p i = some w) =
    (s.grant p i).any fun g => decide (g.state ≠ .reserved) && decide (g.window = w) := by
  cases hg : s.grant p i with
  | none => simp [State.sweptWindow, hg]
  | some g => by_cases hstate : g.state = .reserved <;> simp [State.sweptWindow, hg, hstate]

/-- Settles O46, the grant table's part: every window is lowered once for every slot that named it. -/
theorem grantTableSweep_frees {s : State} {p : Port} {w : Sweep} (hhigh : s.rstnLow = false)
    (hstate : (s.session p).state = .withdrawing) (hsweep : (s.session p).sweep = some w) (hw : w.grantTable = true) :
    ∃ t, exec (.grantTableSweep p) s = .next t ∧
      t = { s with windows := t.windows, columns := t.columns } ∧
      (∀ v, t.window v = (s.window v).bind fun x =>
        let k := (List.finRange 8).countP fun i => (s.grant p i).any fun g =>
          decide (g.state ≠ .reserved) && decide (g.window = v)
        if k = 0 then some x else if x.grants ≤ k then none else some { x with grants := x.grants - k }) ∧
      (∀ q, q ≠ p → t.col q = s.col q) ∧
      t.col p = { s.col p with
        grants := (s.col p).grants.map fun slot => slot.bind fun g => if g.state = .reserved then some g else none
        session := { s.session p with sweep := some { w with grantTable := false } } } := by
  have hexec : exec (.grantTableSweep p) s = .next (followAtn s (s.sweepGrants p)) := by
    change Host.Outcome.next (event s _) = _
    rw [event_high _ hhigh, if_pos (State.due_eq hstate hsweep hw)]
  have hgrants := s.sweptGrants_grants p
  have hwindow := s.sweptGrants_window p
  have happart := State.GrantsApart.foldl p s (List.finRange 8)
  simp only [State.sweptWindow_iff] at hwindow
  unfold State.sweepGrants at hexec
  generalize (List.finRange 8).foldl (State.sweepGrant p) s = v at *
  have hown : v.col p = { s.col p with grants := (v.col p).grants } := by
    have hcolumn := happart.columns p
    rwa [if_pos rfl] at hcolumn
  have hother (q : Port) (hq : q ≠ p) : v.col q = s.col q := by
    have hcolumn := happart.columns q
    rwa [if_neg hq] at hcolumn
  have hreported : (v.session p).sweep = some w := by
    rw [State.session, hown]
    exact hsweep
  rw [State.report_eq hreported] at hexec
  have hcol : (v.onSession p fun x => { x with sweep := some { w with grantTable := false } }).col p =
      { s.col p with
        grants := (s.col p).grants.map Grant.unswept
        session := { s.session p with sweep := some { w with grantTable := false } } } := by
    rw [State.onSession, State.onCol_col_same, ← hgrants, hown]
    rfl
  have hrest (q : Port) (hq : q ≠ p) : (v.onSession p fun x => { x with sweep := some { w with grantTable := false } }).col q =
      s.col q := (State.onCol_col_ne v _ hq).trans (hother q hq)
  rw [followAtn_same] at hexec
  · refine ⟨_, hexec, ?_, hwindow, hrest, hcol⟩
    rw [State.onSession, State.onCol, happart.rest]
  · exact fun q => (State.onSession_sweep_atnDrive v p _ q).trans (happart.tables.atnDrive q)

end Sys2Proof.Machine

/-! PROOFS. The route table's step of a sweep and its notices (03). -/

namespace Sys2Proof.Machine

/-! ### One slot -/

theorem State.setFamily_self {s : State} {f : Fin 256} {x : Option Family} (h : s.family f = x) : s.setFamily f x = s := by
  subst h
  rw [State.setFamily, State.family, Tab.put_get]

/-- The notices a family calls for as a copy of it at a withdrawing port ends, none when it is FREE (R46, R47). -/
def Family.sweepCalls (f : Fin 256) (p : Port) (o : Option Family) : List NoticeCall :=
  o.elim [] fun x => x.endCalls f p .withdrawn

theorem State.endCopy_bind (s : State) (f : Fin 256) (p : Port) : s.endCopy f p .withdrawn =
    (s.setFamily f ((s.family f).bind Family.lowered), Family.sweepCalls f p (s.family f)) := by
  cases hf : s.family f with
  | some x => exact State.endCopy_eq p .withdrawn hf
  | none =>
    have hself : s.setFamily f none = s := State.setFamily_self hf
    simp only [State.endCopy, State.lowerFamily, State.routeDropped, hf, Option.bind_none, hself, Family.sweepCalls]
    rfl

/-- The family whose copy a sweep ends with slot `i` (R60). -/
def State.sweptFamily (s : State) (p : Port) (i : Fin 63) : Option (Fin 256) :=
  (s.route p i).bind fun r => if r.state = .reserved then none else some r.family

/-- What a sweep leaves in a slot: a RESERVED entry (R60). -/
def RouteCopy.unswept (slot : Option RouteCopy) : Option RouteCopy := slot.bind fun r => if r.state = .reserved then some r else none

/-- The sweep of one slot without its notices. -/
def State.clearRoute (p : Port) (s : State) (i : Fin 63) : State :=
  match s.sweptFamily p i with
  | some f => (s.setRoute p i none).setFamily f ((s.family f).bind Family.lowered)
  | none => s

/-- The notices the sweep of one slot calls for. -/
def State.slotCalls (s : State) (p : Port) (i : Fin 63) : List NoticeCall :=
  (s.sweptFamily p i).elim [] fun f => Family.sweepCalls f p (s.family f)

section
variable (s : State) (p : Port) (i : Fin 63)

theorem State.sweepRoute_eq : State.sweepRoute p s i = (State.clearRoute p s i).notifyAll (s.slotCalls p i) := by
  cases hr : s.route p i with
  | none => simp only [State.sweepRoute, State.clearRoute, State.slotCalls, State.sweptFamily, hr, Option.bind_none]; rfl
  | some r =>
    have hend := (s.setRoute p i none).endCopy_bind r.family p
    cases hstate : r.state <;>
      simp [State.sweepRoute, State.clearRoute, State.slotCalls, State.sweptFamily, hr, hstate, CopyState.swept, hend, State.notifyAll]

theorem State.clearRoute_route (j : Fin 63) :
    (State.clearRoute p s i).route p j = if j = i then RouteCopy.unswept (s.route p j) else s.route p j := by
  by_cases hj : j = i
  · subst hj
    cases hr : s.route p j with
    | none => simp [State.clearRoute, State.sweptFamily, RouteCopy.unswept, hr]
    | some r => by_cases hstate : r.state = .reserved <;> simp [State.clearRoute, State.sweptFamily, RouteCopy.unswept, hr, hstate]
  · rw [State.clearRoute, if_neg hj]
    cases s.sweptFamily p i with
    | none => rfl
    | some f => simp [hj]

theorem State.clearRoute_family (f : Fin 256) : (State.clearRoute p s i).family f =
    if s.sweptFamily p i = some f then (s.family f).bind Family.lowered else s.family f := by
  rw [State.clearRoute]
  cases s.sweptFamily p i with
  | none => simp
  | some g =>
    by_cases hf : g = f
    · subst hf; simp
    · simp [hf, Ne.symm hf]

theorem State.clearRoute_sweptFamily {j : Fin 63} (h : j ≠ i) : (State.clearRoute p s i).sweptFamily p j = s.sweptFamily p j := by
  rw [State.sweptFamily, State.clearRoute_route, if_neg h]
  rfl

/-- Notices go before or after the sweep of a slot. -/
theorem State.clearRoute_notifyAll (calls : List NoticeCall) :
    State.clearRoute p (s.notifyAll calls) i = (State.clearRoute p s i).notifyAll calls := by
  have happart := NoticesApart.notifyAll s calls
  have hnamed : (s.notifyAll calls).sweptFamily p i = s.sweptFamily p i := by
    rw [State.sweptFamily, happart.route]
    rfl
  rw [State.clearRoute, State.clearRoute, hnamed]
  cases s.sweptFamily p i with
  | none => rfl
  | some f =>
    dsimp only
    rw [happart.family, State.notifyAll_setFamily, State.notifyAll_setRoute]

end

/-! ### All slots in turn -/

/-- The notices the slots of a list call for in turn, each from the state the slots before it left. -/
def State.sweepCalls (p : Port) : State → List (Fin 63) → List NoticeCall
  | _, [] => []
  | s, i :: is => s.slotCalls p i ++ State.sweepCalls p (State.clearRoute p s i) is

/-- The notices of a sweep can all be created after its slots are freed. -/
theorem State.sweptRoutes_eq (s : State) (p : Port) (earlier : List NoticeCall) (is : List (Fin 63)) :
    is.foldl (State.sweepRoute p) (s.notifyAll earlier) =
      (is.foldl (State.clearRoute p) s).notifyAll (earlier ++ State.sweepCalls p s is) := by
  induction is generalizing s earlier with
  | nil => rw [State.sweepCalls, List.append_nil]; rfl
  | cons i is ih =>
    have hcalls : (s.notifyAll earlier).slotCalls p i = s.slotCalls p i := by
      have happart := NoticesApart.notifyAll s earlier
      simp only [State.slotCalls, State.sweptFamily, happart.route, happart.family]
    have hstep : State.sweepRoute p (s.notifyAll earlier) i =
        (State.clearRoute p s i).notifyAll (earlier ++ s.slotCalls p i) := by
      rw [State.sweepRoute_eq, hcalls, State.clearRoute_notifyAll, State.notifyAll, State.notifyAll, State.notifyAll,
        List.foldl_append]
    rw [List.foldl_cons, hstep, ih, State.sweepCalls, List.append_assoc]
    rfl

/-- The slots before `i` in `is` that name family `f`. -/
def State.sweptBefore (s : State) (p : Port) (is : List (Fin 63)) (i : Fin 63) (f : Fin 256) : Nat :=
  is.countP fun j => decide (j < i) && decide (s.sweptFamily p j = some f)

/-- The notices of each slot, from its family as the slots before it left it. -/
theorem State.sweepCalls_eq (s : State) (p : Port) {is : List (Fin 63)} (h : is.Pairwise (· < ·)) :
    State.sweepCalls p s is = is.flatMap fun i => (s.sweptFamily p i).elim [] fun f =>
      Family.sweepCalls f p ((Option.bind · Family.lowered)^[s.sweptBefore p is i f] (s.family f)) := by
  induction is generalizing s with
  | nil => rfl
  | cons i is ih =>
    obtain ⟨hi, hsorted⟩ := List.pairwise_cons.mp h
    rw [State.sweepCalls, ih _ hsorted, List.flatMap_cons]
    have hbefore (j : Fin 63) (hj : j ∈ is) (f : Fin 256) : s.sweptBefore p (i :: is) j f =
        (State.clearRoute p s i).sweptBefore p is j f + if s.sweptFamily p i = some f then 1 else 0 := by
      have hkept : ∀ k ∈ is, (State.clearRoute p s i).sweptFamily p k = s.sweptFamily p k := fun k hk =>
        s.clearRoute_sweptFamily p i (ne_of_gt (hi k hk))
      have htail : (is.countP fun k => decide (k < j) && decide ((State.clearRoute p s i).sweptFamily p k = some f)) =
          is.countP fun k => decide (k < j) && decide (s.sweptFamily p k = some f) :=
        List.countP_congr fun k hk => by rw [hkept k hk]
      simp only [State.sweptBefore, List.countP_cons, htail, hi j hj, decide_true, Bool.true_and, decide_eq_true_eq]
    have hfirst (f : Fin 256) : s.sweptBefore p (i :: is) i f = 0 := by
      refine List.countP_eq_zero.mpr fun j hj => ?_
      have hle : ¬ j < i := not_lt.mpr (by
        rcases List.mem_cons.mp hj with rfl | hj
        · exact le_rfl
        · exact (hi j hj).le)
      simp [hle]
    congr 1
    · simp only [State.slotCalls, hfirst, Function.iterate_zero, id]
    · refine List.flatMap_congr fun j hj => ?_
      rw [s.clearRoute_sweptFamily p i (ne_of_gt (hi j hj))]
      cases s.sweptFamily p j with
      | none => rfl
      | some f =>
        simp only [Option.elim_some, hbefore j hj f, State.clearRoute_family]
        by_cases hf : s.sweptFamily p i = some f
        · simp only [hf, if_true, Function.iterate_succ_apply]
        · simp only [hf, if_false, Nat.add_zero]

/-- The families and the slots after a sweep of the whole table. -/
theorem State.clearedRoutes_family (s : State) (p : Port) (f : Fin 256) :
    ((List.finRange 63).foldl (State.clearRoute p) s).family f = (s.family f).bind fun x =>
      let k := (List.finRange 63).countP fun i => decide (s.sweptFamily p i = some f)
      if k = 0 then some x else if x.copies ≤ k then none else some { x with copies := x.copies - k } :=
  (foldl_record (fun s i _ h => s.clearRoute_sweptFamily p i h) (fun s i f => s.clearRoute_family p i f)
    (List.nodup_finRange 63) s f).trans (Family.iterate_lowered _ _)

theorem State.clearedRoutes_routes (s : State) (p : Port) : (((List.finRange 63).foldl (State.clearRoute p) s).col p).routes =
    (s.col p).routes.map RouteCopy.unswept := by
  refine Tab.ext_get fun i => ?_
  have hslot := foldl_slot (slot := fun s i => s.route p i) (fun s i j => s.clearRoute_route p i j) (List.nodup_finRange 63) s i
  rw [if_pos (List.mem_finRange i)] at hslot
  rw [Tab.get_map]
  exact hslot

/-- Between `s` and `t` the route table of `p` and families changed at most. -/
structure State.RoutesApart (p : Port) (s t : State) : Prop where
  rest : t = { s with families := t.families, columns := t.columns }
  columns : ∀ q, t.col q = if q = p then { s.col q with routes := (t.col q).routes } else s.col q

theorem State.RoutesApart.refl (p : Port) (s : State) : State.RoutesApart p s s := ⟨rfl, fun _ => (ite_self _).symm⟩

theorem State.RoutesApart.trans {p : Port} {s t u : State} (h : State.RoutesApart p s t) (k : State.RoutesApart p t u) :
    State.RoutesApart p s u := by
  refine ⟨by rw [k.rest, h.rest], fun q => ?_⟩
  rw [k.columns q, h.columns q]
  split_ifs <;> rfl

theorem State.RoutesApart.setRoute (s : State) (p : Port) (i : Fin 63) (x : Option RouteCopy) :
    State.RoutesApart p s (s.setRoute p i x) := by
  refine ⟨rfl, fun q => ?_⟩
  by_cases hq : q = p
  · subst hq; simp [State.setRoute]
  · simp [State.setRoute, hq]

theorem State.RoutesApart.foldl (p : Port) (s : State) (is : List (Fin 63)) :
    State.RoutesApart p s (is.foldl (State.clearRoute p) s) := by
  induction is generalizing s with
  | nil => exact .refl p s
  | cons i is ih =>
    have hslot : State.RoutesApart p s (State.clearRoute p s i) := by
      rw [State.clearRoute]
      cases s.sweptFamily p i with
      | none => exact .refl p s
      | some f => exact (State.RoutesApart.setRoute s p i none).trans ⟨rfl, fun _ => (ite_self _).symm⟩
    exact hslot.trans (ih _)

theorem State.sweptFamily_iff (s : State) (p : Port) (i : Fin 63) (f : Fin 256) : decide (s.sweptFamily p i = some f) =
    (s.route p i).any fun r => decide (r.state ≠ .reserved) && decide (r.family = f) := by
  cases hr : s.route p i with
  | none => simp [State.sweptFamily, hr]
  | some r => by_cases hstate : r.state = .reserved <;> simp [State.sweptFamily, hr, hstate]

theorem State.sweptFamily_filter (s : State) (p : Port) (i : Fin 63) :
    s.sweptFamily p i = ((s.route p i).filter fun r => decide (r.state ≠ .reserved)).map RouteCopy.family := by
  cases hr : s.route p i with
  | none => simp [State.sweptFamily, hr]
  | some r => by_cases hstate : r.state = .reserved <;> simp [State.sweptFamily, hr, hstate, Option.filter]

/-- The notices of a family of which `k` copies ended before (R46, R47). -/
theorem Family.sweepCalls_lowered (f : Fin 256) (p : Port) (k : Nat) (o : Option Family) :
    Family.sweepCalls f p ((Option.bind · Family.lowered)^[k] o) = o.elim [] fun x =>
      if k = 0 ∨ k < x.copies then ({ x with copies := x.copies - k } : Family).endCalls f p .withdrawn else [] := by
  rw [Family.iterate_lowered]
  cases o with
  | none => rfl
  | some x =>
    by_cases hk : k = 0
    · subst hk
      rfl
    · by_cases hlast : x.copies ≤ k
      · simp [Family.sweepCalls, hk, hlast, not_lt.mpr hlast]
      · simp [Family.sweepCalls, hk, hlast, not_le.mp hlast]

/-- The notices of the whole sweep, as the statement gives them. -/
theorem State.sweepCalls_table (s : State) (p : Port) : State.sweepCalls p s (List.finRange 63) =
    (List.finRange 63).flatMap fun i =>
      ((s.route p i).filter fun r => decide (r.state ≠ .reserved)).elim [] fun r => (s.family r.family).elim [] fun x =>
        let before := (List.finRange 63).countP fun j => decide (j < i) && (s.route p j).any fun q =>
          decide (q.state ≠ .reserved) && decide (q.family = r.family)
        if before = 0 ∨ before < x.copies then
          ({ x with copies := x.copies - before } : Family).endCalls r.family p .withdrawn
        else [] := by
  rw [State.sweepCalls_eq s p (List.pairwise_lt_finRange 63)]
  refine List.flatMap_congr fun i _ => ?_
  rw [State.sweptFamily_filter]
  simp only [Family.sweepCalls_lowered, State.sweptBefore, State.sweptFamily_iff]
  cases (s.route p i).filter fun r => decide (r.state ≠ .reserved) <;> rfl

/-- Settles O46: the slots are freed one after another, each family and window lowered as often as a slot named it; the notices,
which read neither table, can be created at the end. -/
theorem tableSweepsFreeTheSlots : Obligations.TableSweepsFreeTheSlots := by
  unfold Obligations.TableSweepsFreeTheSlots
  intro s p w hhigh hstate hsweep
  refine ⟨fun hw => ?_, fun hw => grantTableSweep_frees hhigh hstate hsweep hw⟩
  have hexec : exec (.routeTableSweep p) s = .next (followAtn s (s.sweepRoutes p)) := by
    change Host.Outcome.next (event s _) = _
    rw [event_high _ hhigh, if_pos (State.due_eq hstate hsweep hw)]
  have hswept := State.sweptRoutes_eq s p [] (List.finRange 63)
  have hroutes := s.clearedRoutes_routes p
  have hfamily := s.clearedRoutes_family p
  have happart := State.RoutesApart.foldl p s (List.finRange 63)
  rw [List.nil_append, State.sweepCalls_table] at hswept
  simp only [State.sweptFamily_iff] at hfamily
  unfold State.sweepRoutes at hexec
  change (List.finRange 63).foldl (State.sweepRoute p) s = _ at hswept
  rw [hswept] at hexec
  generalize (List.finRange 63).foldl (State.clearRoute p) s = v at *
  rw [← State.notifyAll_report] at hexec
  have hown : v.col p = { s.col p with routes := (v.col p).routes } := by
    have hcolumn := happart.columns p
    rwa [if_pos rfl] at hcolumn
  have hother (q : Port) (hq : q ≠ p) : v.col q = s.col q := by
    have hcolumn := happart.columns q
    rwa [if_neg hq] at hcolumn
  have hreported : (v.session p).sweep = some w := by
    rw [State.session, hown]
    exact hsweep
  rw [State.report_eq hreported] at hexec
  refine ⟨_, _, hexec, followAtn_lines .., ?_, hfamily, fun q hq => ?_, ?_⟩
  · rw [State.onSession, State.onCol, happart.rest]
  · exact (State.onCol_col_ne v _ hq).trans (hother q hq)
  · rw [State.onSession, State.onCol_col_same]
    change _ = { s.col p with
      routes := (s.col p).routes.map RouteCopy.unswept
      session := { s.session p with sweep := some { w with routeTable := false } } }
    rw [← hroutes, hown]
    rfl

end Sys2Proof.Machine

/-! PROOFS. Reading back what a REQUEST frame spells (08, 09): numbers, fields, request bodies, whole frames. -/

namespace Sys2Proof.Machine

/-! ### Numbers in bytes -/

theorem byteOf_toNat {n : Nat} (h : fits1 n = true) : (byteOf n).toNat = n :=
  (BitVec.toNat_ofNat n 8).trans (Nat.mod_eq_of_lt (of_decide_eq_true h))

theorem num16_be16 {n : Nat} (h : fits2 n = true) : num16 (byteOf (n / 256)) (byteOf n) = n := by
  have hlt : n < 65536 := of_decide_eq_true h
  simp only [num16, byteOf, BitVec.toNat_ofNat]
  omega

theorem num32_wide {n : Nat} (h : fits4 n = true) :
    num32 (byteOf (n / 16777216)) (byteOf (n / 65536)) (byteOf (n / 256)) (byteOf n) = n := by
  have hlt : n < 4294967296 := of_decide_eq_true h
  simp only [num32, byteOf, BitVec.toNat_ofNat]
  omega

/-! ### Fields read back from the bytes that write them -/

/-- Bytes are read as fields, or kept as they are. -/
def Body.Keeps {α : Type} (shape : List Byte → Body α) : Prop := ∀ bs, (∃ f, shape bs = .fields f) ∨ shape bs = .misshapen bs

/-- A body is read back from its bytes when its fields are, and bytes of a wrong length are kept. -/
theorem shape_bodyBytes {α : Type} {fit : α → Bool} {shape : List Byte → Body α} {write : α → List Byte}
    (hfields : ∀ f, fit f = true → shape (write f) = .fields f) (hkeeps : Body.Keeps shape) {b : Body α}
    (h : b.ok fit shape = true) : shape (bodyBytes write b) = b := by
  cases b with
  | fields f => exact hfields f h
  | misshapen bs =>
    obtain ⟨f, hread⟩ | hkept := hkeeps bs
    · rw [Body.ok, hread] at h
      cases h
    · exact hkept

theorem shapeByte_keeps : Body.Keeps shapeByte := fun _ => by
  unfold shapeByte; split <;> simp
theorem shapeCount_keeps : Body.Keeps shapeCount := fun _ => by
  unfold shapeCount; split <;> simp
theorem shapeCreateRoute_keeps : Body.Keeps shapeCreateRoute := fun _ => by
  unfold shapeCreateRoute; split <;> simp
theorem shapeOpenInlet_keeps : Body.Keeps shapeOpenInlet := fun _ => by
  unfold shapeOpenInlet; split <;> simp
theorem shapeCloseInlet_keeps : Body.Keeps shapeCloseInlet := fun _ => by
  unfold shapeCloseInlet; split <;> simp
theorem shapeSetInlet_keeps : Body.Keeps shapeSetInlet := fun _ => by
  unfold shapeSetInlet; split <;> simp
theorem shapeSetLane_keeps : Body.Keeps shapeSetLane := fun _ => by
  unfold shapeSetLane; split <;> simp
theorem shapeReceive_keeps : Body.Keeps shapeReceive := fun _ => by
  unfold shapeReceive; split <;> simp
theorem shapeCreateWindow_keeps : Body.Keeps shapeCreateWindow := fun _ => by
  unfold shapeCreateWindow; split <;> simp
theorem shapeStreamOpen_keeps : Body.Keeps shapeStreamOpen := fun _ => by
  unfold shapeStreamOpen; split <;> simp
theorem shapeSetPort_keeps : Body.Keeps shapeSetPort := fun _ => by
  unfold shapeSetPort; split <;> simp
theorem shapeSetReserve_keeps : Body.Keeps shapeSetReserve := fun _ => by
  unfold shapeSetReserve; split <;> simp
theorem shapeSend_keeps : Body.Keeps shapeSend := fun _ => by
  unfold shapeSend; split <;> simp

theorem shapeHello_keeps : Body.Keeps shapeHello := fun _ => by
  unfold shapeHello
  split
  · split_ifs <;> simp
  · simp

theorem shapeByte_write (n : Nat) (h : fits1 n = true) : shapeByte [byteOf n] = .fields n := by
  rw [shapeByte, byteOf_toNat h]

theorem shapeCount_write (n : Nat) (h : fits2 n = true) : shapeCount (be16 n) = .fields n := by
  simp only [shapeCount, be16, num16_be16 h]

theorem shapeHello_write (f : HelloFields) (h : f.fit = true) : shapeHello (f.agentClass :: f.name) = .fields f :=
  if_pos (of_decide_eq_true h)

theorem shapeCreateRoute_write (f : CreateRouteFields) (h : f.fit = true) :
    shapeCreateRoute (byteOf f.inlet :: (be16 f.label ++ [byteOf f.rights, byteOf f.quota, byteOf f.notify])) = .fields f := by
  simp only [CreateRouteFields.fit, Bool.and_eq_true] at h
  obtain ⟨⟨⟨⟨hinlet, hlabel⟩, hrights⟩, hquota⟩, hnotify⟩ := h
  simp only [shapeCreateRoute, be16, List.cons_append, List.nil_append, num16_be16, byteOf_toNat, *]

theorem shapeOpenInlet_write (f : OpenInletFields) (h : f.fit = true) :
    shapeOpenInlet ([byteOf f.inlet, byteOf f.lane, byteOf f.depth, byteOf f.wake]) = .fields f := by
  simp only [OpenInletFields.fit, Bool.and_eq_true] at h
  obtain ⟨⟨⟨hinlet, hlane⟩, hdepth⟩, hwake⟩ := h
  simp only [shapeOpenInlet, byteOf_toNat, *]

theorem shapeCloseInlet_write (f : CloseInletFields) (h : f.fit = true) :
    shapeCloseInlet ([byteOf f.inlet, byteOf f.mode]) = .fields f := by
  simp only [CloseInletFields.fit, Bool.and_eq_true] at h
  obtain ⟨hinlet, hmode⟩ := h
  simp only [shapeCloseInlet, byteOf_toNat, *]

theorem shapeSetInlet_write (f : SetInletFields) (h : f.fit = true) :
    shapeSetInlet ([byteOf f.inlet, byteOf f.depth, byteOf f.wake, byteOf f.lane]) = .fields f := by
  simp only [SetInletFields.fit, Bool.and_eq_true] at h
  obtain ⟨⟨⟨hinlet, hdepth⟩, hwake⟩, hlane⟩ := h
  simp only [shapeSetInlet, byteOf_toNat, *]

theorem shapeSetLane_write (f : SetLaneFields) (h : f.fit = true) :
    shapeSetLane ([byteOf f.lane, byteOf f.mode]) = .fields f := by
  simp only [SetLaneFields.fit, Bool.and_eq_true] at h
  obtain ⟨hlane, hmode⟩ := h
  simp only [shapeSetLane, byteOf_toNat, *]

theorem shapeReceive_write (f : ReceiveFields) (h : f.fit = true) :
    shapeReceive ([byteOf f.inlet, byteOf f.count]) = .fields f := by
  simp only [ReceiveFields.fit, Bool.and_eq_true] at h
  obtain ⟨hinlet, hcount⟩ := h
  simp only [shapeReceive, byteOf_toNat, *]

theorem shapeCreateWindow_write (f : CreateWindowFields) (h : f.fit = true) :
    shapeCreateWindow (wide f.base ++ wide f.limit ++ [byteOf f.share]) = .fields f := by
  simp only [CreateWindowFields.fit, Bool.and_eq_true] at h
  obtain ⟨⟨hbase, hlimit⟩, hshare⟩ := h
  simp only [shapeCreateWindow, wide, List.cons_append, List.nil_append, num32_wide, byteOf_toNat, *]

theorem shapeStreamOpen_write (f : StreamOpenFields) (h : f.fit = true) :
    shapeStreamOpen ([byteOf f.slot, byteOf f.direction, byteOf f.order]) = .fields f := by
  simp only [StreamOpenFields.fit, Bool.and_eq_true] at h
  obtain ⟨⟨hslot, hdirection⟩, horder⟩ := h
  simp only [shapeStreamOpen, byteOf_toNat, *]

theorem shapeSetPort_write (f : SetPortFields) (h : f.fit = true) :
    shapeSetPort ([byteOf f.port, byteOf f.timeout, byteOf f.retryLimit, byteOf f.atnMode] ++ wide f.base ++ wide f.length) = .fields f := by
  simp only [SetPortFields.fit, Bool.and_eq_true] at h
  obtain ⟨⟨⟨⟨⟨hport, htimeout⟩, hretryLimit⟩, hatnMode⟩, hbase⟩, hlength⟩ := h
  simp only [shapeSetPort, wide, List.cons_append, List.nil_append, num32_wide, byteOf_toNat, *]

theorem shapeSetReserve_write (f : SetReserveFields) (h : f.fit = true) :
    shapeSetReserve (be16 f.cells ++ [byteOf f.descriptors]) = .fields f := by
  simp only [SetReserveFields.fit, Bool.and_eq_true] at h
  obtain ⟨hcells, hdescriptors⟩ := h
  simp only [shapeSetReserve, be16, List.cons_append, List.nil_append, num16_be16, byteOf_toNat, *]

/-! ### SEND -/

theorem readSpecs_bytes {specs : List SpecFields} (h : specs.all SpecFields.fit = true) (rest : List Byte) :
    readSpecs specs.length (specs.flatMap specBytes ++ rest) = some (specs, rest) := by
  induction specs with
  | nil => rfl
  | cons x specs ih =>
    simp only [List.all_cons, Bool.and_eq_true, SpecFields.fit] at h
    obtain ⟨⟨⟨⟨⟨hkind, hslot⟩, hmode⟩, hrights⟩, hquota⟩, hrest⟩ := h
    simp only [List.length_cons, List.flatMap_cons, specBytes, List.cons_append, List.nil_append, readSpecs,
      ih hrest, byteOf_toNat, *]

/-- A reply inlet stands exactly when MINT_REPLY is set (R62). -/
theorem readReply_bytes {mint : Nat} {reply : Option Nat} (hmint : fits1 mint = true) (h : replyFits mint reply = true)
    (rest : List Byte) : readReply (byteOf mint) (replyBytes reply ++ rest) = some (reply, rest) := by
  have hset : byteOf mint = 1 ↔ mint = 1 := by
    rw [← BitVec.toNat_inj, byteOf_toNat hmint]
    rfl
  cases reply with
  | none =>
    have hclear : mint ≠ 1 := of_decide_eq_true h
    exact if_neg fun heq => hclear (hset.mp heq)
  | some n =>
    simp only [replyFits, Bool.and_eq_true, decide_eq_true_eq] at h
    exact (if_pos (hset.mpr h.1)).trans (congrArg (fun m => some (some m, rest)) (byteOf_toNat h.2))

theorem shapeSend_write (f : SendFields) (h : f.fit = true) : shapeSend (sendBytes f) = .fields f := by
  simp only [SendFields.fit, Bool.and_eq_true] at h
  obtain ⟨⟨⟨⟨⟨⟨hslot, hret⟩, hmint⟩, hreply⟩, hcount⟩, hspecs⟩, hlength⟩ := h
  have htail := readSpecs_bytes hspecs (be16 f.bodyLength ++ f.body)
  simp only [be16, List.cons_append, List.nil_append] at htail
  simp only [shapeSend, sendBytes, readSend, readSendTail, be16, List.cons_append, List.nil_append, readReply_bytes hmint hreply,
    byteOf_toNat hslot, byteOf_toNat hret, byteOf_toNat hmint, byteOf_toNat hcount, htail, num16_be16 hlength]

/-! ### Requests and frames -/

theorem requestCommand_code (k : RequestKind) (p : Port) (tag : Byte) (bs : List Byte) :
    requestCommand p tag (k.code :: bs) = requestOf k p tag bs := by
  simp only [requestCommand, Laws.RequestFrame.kindOf_code]

/-- A request is read back from the body of its frame, kind by kind (R162). -/
theorem requestCommand_body {i : Instr} {p : Port} {tag : Byte} {body : List Byte} (hfit : i.fieldsFit = true)
    (hheader : requestHeader i = some (p, tag)) (hbody : requestBody i = some body) : requestCommand p tag body = i := by
  cases i <;> cases hheader <;> cases hbody
  case hello.refl.refl b =>
    exact (requestCommand_code .hello p tag _).trans
      (congrArg (Instr.hello p tag) (shape_bodyBytes shapeHello_write shapeHello_keeps hfit))
  case createRoute.refl.refl b =>
    exact (requestCommand_code .createRoute p tag _).trans
      (congrArg (Instr.createRoute p tag) (shape_bodyBytes shapeCreateRoute_write shapeCreateRoute_keeps hfit))
  case dropRoute.refl.refl b =>
    exact (requestCommand_code .dropRoute p tag _).trans
      (congrArg (Instr.dropRoute p tag) (shape_bodyBytes shapeByte_write shapeByte_keeps hfit))
  case revokeFamily.refl.refl b =>
    exact (requestCommand_code .revokeFamily p tag _).trans
      (congrArg (Instr.revokeFamily p tag) (shape_bodyBytes shapeByte_write shapeByte_keeps hfit))
  case routeInfo.refl.refl b =>
    exact (requestCommand_code .routeInfo p tag _).trans
      (congrArg (Instr.routeInfo p tag) (shape_bodyBytes shapeByte_write shapeByte_keeps hfit))
  case openInlet.refl.refl b =>
    exact (requestCommand_code .openInlet p tag _).trans
      (congrArg (Instr.openInlet p tag) (shape_bodyBytes shapeOpenInlet_write shapeOpenInlet_keeps hfit))
  case closeInlet.refl.refl b =>
    exact (requestCommand_code .closeInlet p tag _).trans
      (congrArg (Instr.closeInlet p tag) (shape_bodyBytes shapeCloseInlet_write shapeCloseInlet_keeps hfit))
  case setInlet.refl.refl b =>
    exact (requestCommand_code .setInlet p tag _).trans
      (congrArg (Instr.setInlet p tag) (shape_bodyBytes shapeSetInlet_write shapeSetInlet_keeps hfit))
  case setLane.refl.refl b =>
    exact (requestCommand_code .setLane p tag _).trans
      (congrArg (Instr.setLane p tag) (shape_bodyBytes shapeSetLane_write shapeSetLane_keeps hfit))
  case receive.refl.refl b =>
    exact (requestCommand_code .receive p tag _).trans
      (congrArg (Instr.receive p tag) (shape_bodyBytes shapeReceive_write shapeReceive_keeps hfit))
  case inletStatus.refl.refl b =>
    exact (requestCommand_code .inletStatus p tag _).trans
      (congrArg (Instr.inletStatus p tag) (shape_bodyBytes shapeByte_write shapeByte_keeps hfit))
  case send.refl.refl b =>
    exact (requestCommand_code .send p tag _).trans
      (congrArg (Instr.send p tag) (shape_bodyBytes shapeSend_write shapeSend_keeps hfit))
  case createWindow.refl.refl b =>
    exact (requestCommand_code .createWindow p tag _).trans
      (congrArg (Instr.createWindow p tag) (shape_bodyBytes shapeCreateWindow_write shapeCreateWindow_keeps hfit))
  case closeWindow.refl.refl b =>
    exact (requestCommand_code .closeWindow p tag _).trans
      (congrArg (Instr.closeWindow p tag) (shape_bodyBytes shapeByte_write shapeByte_keeps hfit))
  case dropGrant.refl.refl b =>
    exact (requestCommand_code .dropGrant p tag _).trans
      (congrArg (Instr.dropGrant p tag) (shape_bodyBytes shapeByte_write shapeByte_keeps hfit))
  case streamOpen.refl.refl b =>
    exact (requestCommand_code .streamOpen p tag _).trans
      (congrArg (Instr.streamOpen p tag) (shape_bodyBytes shapeStreamOpen_write shapeStreamOpen_keeps hfit))
  case streamRead.refl.refl b =>
    exact (requestCommand_code .streamRead p tag _).trans
      (congrArg (Instr.streamRead p tag) (shape_bodyBytes shapeCount_write shapeCount_keeps hfit))
  case evict.refl.refl b =>
    exact (requestCommand_code .evict p tag _).trans
      (congrArg (Instr.evict p tag) (shape_bodyBytes shapeByte_write shapeByte_keeps hfit))
  case setPort.refl.refl b =>
    exact (requestCommand_code .setPort p tag _).trans
      (congrArg (Instr.setPort p tag) (shape_bodyBytes shapeSetPort_write shapeSetPort_keeps hfit))
  case setReserve.refl.refl b =>
    exact (requestCommand_code .setReserve p tag _).trans
      (congrArg (Instr.setReserve p tag) (shape_bodyBytes shapeSetReserve_write shapeSetReserve_keeps hfit))
  case portStatus.refl.refl b =>
    exact (requestCommand_code .portStatus p tag _).trans
      (congrArg (Instr.portStatus p tag) (shape_bodyBytes shapeByte_write shapeByte_keeps hfit))
  case bye.refl.refl b => exact requestCommand_code .bye p tag b
  case dormant.refl.refl b => exact requestCommand_code .dormant p tag b
  case resume.refl.refl b => exact requestCommand_code .resume p tag b
  case status.refl.refl b => exact requestCommand_code .status p tag b
  case streamData.refl.refl b => exact requestCommand_code .streamData p tag b
  case storeStatus.refl.refl b => exact requestCommand_code .storeStatus p tag b
  case systemReset.refl.refl b => exact requestCommand_code .systemReset p tag b
  case unknownRequestKind.refl.refl k b =>
    simp only [requestCommand, Option.isNone_iff_eq_none.mp hfit]

/-- Everything but the sync byte and the two CRC bytes of a frame is what its CRC covers, and its body follows the header. -/
theorem frameCommand_request (p : Port) (tag : Byte) (body : List Byte) :
    frameCommand p (frameBytes 0x01 tag body) = requestCommand p tag body := by
  have hcrc : frameCrcHolds (frameBytes 0x01 tag body) = true := by
    simp [frameCrcHolds, frameBytes, be16]
  have hbody : frameBody (frameBytes 0x01 tag body) = body := by
    simp [frameBody, frameBytes, be16]
  unfold frameCommand
  rw [hcrc, hbody]
  rfl

/-- Settles O58: a REQUEST frame hands its body on, and the body is read back field by field. -/
theorem framesSpellTheirRequests : Obligations.FramesSpellTheirRequests := by
  unfold Obligations.FramesSpellTheirRequests
  intro i p tag body hwell hheader hbody
  rw [frameCommand_request]
  simp only [Instr.wellFormed, Bool.and_eq_true] at hwell
  exact requestCommand_body hwell.1 hheader hbody

end Sys2Proof.Machine
